-- ==== Sys2Proof/Word.lean ====
section
/-! DEFINITION. The word types of the CDC core: every value is unsigned (R17), with the widths of R15, R57 and R70. -/

namespace Sys2Proof

/-- One byte: a payload byte of the sector source, a header byte, a routing code (R12, R32, R92). -/
abbrev Byte := BitVec 8

/-- One 16-bit word: the unit of address and of transfer in the slot store (R51), and the width of `READWORD` and `MODE` (R57). -/
abbrev Word := BitVec 16

/-- The 32-bit width of `current_sector`, `sectors_remaining` and of `SEEK`'s operands (R15, R72). -/
abbrev SectorWord := BitVec 32

/-- The 32-bit header that `BEGINREAD` returns (R55). -/
abbrev HeaderWord := BitVec 32

/-- The 72-bit command word of R70. -/
abbrev CommandWord := BitVec 72

end Sys2Proof
end

