-- ==== Sys2Proof/Config.lean ====
section
/-! DEFINITION. What an implementation fixes: the spec's OPEN parameters (R10 to R14), and the free values, opaque constants no proof can evaluate. -/

namespace Sys2Proof

/-- The three OPEN parameters of the block: `CAPACITY` (R10), `SECTOR_BYTES` (R12) and `MODE_BYTE` (R14).
They are plain data that the state carries and that no operation writes, so a statement about every state is a statement
about every parameter set (DESIGN CHOICE, notes/assumptions/1.md). -/
structure Params where
  capacity    : Nat
  sectorBytes : Nat
  modeByte    : Byte
  deriving DecidableEq, Repr

/-- `HEADER_WORDS = 2` (R11). -/
def headerWords : Nat := 2

/-- `PAYLOAD_WORDS = SECTOR_BYTES / 2` (R12). -/
def Params.payloadWords (p : Params) : Nat := p.sectorBytes / 2

/-- `WORDS_PER_SECTOR = HEADER_WORDS + PAYLOAD_WORDS` (R13). -/
def Params.wordsPerSector (p : Params) : Nat := headerWords + p.payloadWords

/-- The spec's default parameter set `P_default` (R10, R12, R14; 93_implementation_defined.md G1 to G3): PRESUMED, since the
spec marks the three defaults as general knowledge (notes/assumptions/2.md). -/
def Params.default : Params := ⟨5, 2048, 0x01⟩

/-- FREE VALUE. What the slot word at a linear word address holds before any `RefillPass` has written it: R46 leaves the
reset contents of `Slot` unspecified and 93_implementation_defined.md U10 says `any value` (notes/assumptions/4.md). -/
opaque Config.unwrittenWord : Nat → Word

/-- FREE VALUE. Byte `j` of the answer the sector source gives to its `k`-th call, where the environment has written down no
answer for that call: the source is an oracle that may return any bytes (R176; notes/assumptions/5.md). -/
opaque Config.sourceByte : Nat → Nat → Byte

end Sys2Proof
end

