-- ==== Sys2Proof/Syntax.lean ====
section
/-! DEFINITION. The operations of the block as an inductive type, one constructor per row of spec/opcode_table.json (R74), and the listing notation of R80 and R81. -/

namespace Sys2Proof

/-- The identity of a requester: `1` = sub CPU, `0` = main CPU (R17). -/
inductive Cpu where
  | main
  | sub
  deriving DecidableEq, Repr

/-- The one-bit form of the requester, the source's `requesting_cpu_is_sub` (R17). -/
def Cpu.isSub : Cpu → Bool
  | .main => false
  | .sub  => true

/-- The eleven operations (R3, R74), with the operands of R72 at the widths of R72. An operand's type has exactly the values
its field of the command word has, so every term of this type is well formed. -/
inductive Instr where
  /-- `INIT`, the source's `Initialize` (R140). -/
  | init
  /-- `START`, the source's `StartTransfer` (R141). -/
  | start
  /-- `STOP`, the source's `StopTransfer` (R142). -/
  | stop
  /-- `POLL`, the source's `Poll` (R120). -/
  | poll
  /-- `BEGINREAD`, the source's `BeginRead` (R121). -/
  | beginread
  /-- `READWORD cpu`, the source's `ReadWord` (R125). -/
  | readword (cpu : Cpu)
  /-- `ACK`, the source's `Acknowledge` (R128). -/
  | ack
  /-- `SEEK sector_index, total_sectors`, the source's `Seek` (R143). -/
  | seek (sectorIndex totalSectors : SectorWord)
  /-- `MODE cpu`, the source's `ModeFlags` (R147). -/
  | mode (cpu : Cpu)
  /-- `SETDEST code`, the source's `SetDeviceDestination` (R145). -/
  | setdest (code : Byte)
  /-- `SETDMA addr`, the source's `SetDMAAddress` (R146). -/
  | setdma (addr : Word)
  deriving DecidableEq, Repr

/-- The mnemonic of R74 (and of spec/opcode_table.json). -/
def Instr.mnemonic : Instr → String
  | .init       => "INIT"
  | .start      => "START"
  | .stop       => "STOP"
  | .poll       => "POLL"
  | .beginread  => "BEGINREAD"
  | .readword _ => "READWORD"
  | .ack        => "ACK"
  | .seek _ _   => "SEEK"
  | .mode _     => "MODE"
  | .setdest _  => "SETDEST"
  | .setdma _   => "SETDMA"

/-- Why a command word has no operation: R75 reserves the operation codes `11` to `15`. -/
inductive DecodeError where
  | reservedOperation (op : BitVec 4)
  deriving DecidableEq, Repr

/-- One line of the listing notation of R80, with its numbers as written, and the pseudo-operations of R81. -/
inductive Listing where
  | init
  | start
  | stop
  | poll
  | beginread
  | readword (cpu : Cpu)
  | ack
  | seek (sectorIndex totalSectors : Nat)
  | mode (cpu : Cpu)
  | setdest (code : Nat)
  | setdma (addr : Nat)
  /-- `READN cpu, n` (R81). -/
  | readn (cpu : Cpu) (n : Nat)
  /-- `DRAIN cpu` (R81). -/
  | drain (cpu : Cpu)
  /-- `PLAY s, t` (R81). -/
  | play (sectorIndex totalSectors : Nat)
  deriving DecidableEq, Repr

/-- How R80 writes the requester. -/
def Cpu.text : Cpu → String
  | .main => "main"
  | .sub  => "sub"

/-- The line in R80's notation: a mnemonic in capitals, operands separated by a comma, numbers in decimal. -/
def Listing.text : Listing → String
  | .init         => "INIT"
  | .start        => "START"
  | .stop         => "STOP"
  | .poll         => "POLL"
  | .beginread    => "BEGINREAD"
  | .readword cpu => "READWORD " ++ cpu.text
  | .ack          => "ACK"
  | .seek a b     => "SEEK " ++ toString a ++ ", " ++ toString b
  | .mode cpu     => "MODE " ++ cpu.text
  | .setdest c    => "SETDEST " ++ toString c
  | .setdma a     => "SETDMA " ++ toString a
  | .readn cpu n  => "READN " ++ cpu.text ++ ", " ++ toString n
  | .drain cpu    => "DRAIN " ++ cpu.text
  | .play s t     => "PLAY " ++ toString s ++ ", " ++ toString t

end Sys2Proof
end

