-- ==== Sys2Proof/WellFormed.lean ====
section
/-! DEFINITION. The checks on what the spec constrains and a type does not: the legal parameter sets (R10, R12) and the numbers of a listing line, which must fit the 32-bit operands of a command word (R70, R80). An `Instr` needs no check: R72's widths are its operands' types. -/

namespace Sys2Proof

/-- `CAPACITY >= 1` (R10). -/
def Params.capacityOk (p : Params) : Bool := decide (1 ≤ p.capacity)

/-- `SECTOR_BYTES` is even and at least 2 (R12, R56). -/
def Params.sectorBytesOk (p : Params) : Bool := decide (p.sectorBytes % 2 = 0 ∧ 2 ≤ p.sectorBytes)

/-- A legal parameter set (R10, R12; `MODE_BYTE` is any byte, R14). -/
def Params.wf (p : Params) : Bool := p.capacityOk && p.sectorBytesOk

/-- A number of a listing line fits a 32-bit operand of the command word (R70). -/
def fitsOperand (n : Nat) : Bool := decide (n < 2 ^ 32)

/-- The numbers of a listing line fit their operands (R70, R72, R80). `SETDEST` and `SETDMA` accept any 32-bit number, of which
the operation uses `a[7:0]` and `a[15:0]`. A repetition count of `READN` is not an operand. -/
def Listing.wf : Listing → Bool
  | .seek a b   => fitsOperand a && fitsOperand b
  | .setdest c  => fitsOperand c
  | .setdma a   => fitsOperand a
  | .play s t   => fitsOperand s && fitsOperand t
  | .init | .start | .stop | .poll | .beginread | .ack => true
  | .readword _ | .mode _ | .readn _ _ | .drain _ => true

end Sys2Proof
end

