-- ==== Sys2Proof/Decode.lean ====
section
/-! DEFINITION. The 72-bit command word (R70 to R73), its decoder (R75, R78), the opcode map of R74, the encoder, and the expansion of a listing line into command words (R80, R81). -/

namespace Sys2Proof

/-! ### The fields of a command word (R70) -/

/-- `CW[71:68]`, the operation code. -/
def opField (w : CommandWord) : BitVec 4 := w.extractLsb' 68 4

/-- `CW[67]`, the requester: `1` = sub CPU, `0` = main CPU. -/
def cpuField (w : CommandWord) : Cpu := if w.getLsbD 67 then .sub else .main

/-- `CW[66:64]`, reserved: the decoder ignores it. -/
def rsvField (w : CommandWord) : BitVec 3 := w.extractLsb' 64 3

/-- `CW[63:32]`, the first operand. -/
def aField (w : CommandWord) : BitVec 32 := w.extractLsb' 32 32

/-- `CW[31:0]`, the second operand. -/
def bField (w : CommandWord) : BitVec 32 := w.extractLsb' 0 32

/-- A command word is written as 18 hexadecimal digits, the most significant first (R70). -/
def hexDigits (w : CommandWord) : List (BitVec 4) :=
  (List.range 18).map fun i => w.extractLsb' (68 - 4 * i) 4

/-! ### Decoding -/

/-- R78: one table lookup on the operation code, total on 72-bit words. Codes `11` to `15` are rejected by name (R75). Every
field an operation does not use is ignored (R73). -/
def decode (w : CommandWord) : Except DecodeError Instr :=
  match (opField w).toNat with
  | 0  => .ok .init
  | 1  => .ok .start
  | 2  => .ok .stop
  | 3  => .ok .poll
  | 4  => .ok .beginread
  | 5  => .ok (.readword (cpuField w))
  | 6  => .ok .ack
  | 7  => .ok (.seek (aField w) (bField w))
  | 8  => .ok (.mode (cpuField w))
  | 9  => .ok (.setdest ((aField w).extractLsb' 0 8))
  | 10 => .ok (.setdma ((aField w).extractLsb' 0 16))
  | _  => .error (.reservedOperation (opField w))

/-- The instruction the decoder reads from a row of spec/opcode_table.json: the table numbers the 72 bits of the one command
word from its least significant bit, as R70 does. Bits above `nbits` are 0. -/
def decodeTableWord (nbits w : Nat) : Option Instr :=
  match decode (BitVec.ofNat 72 (w % 2 ^ nbits)) with
  | .ok i    => some i
  | .error _ => none

/-! ### Encoding -/

/-- The command word with the given fields and `rsv = 0` (R70). -/
def packFields (op : BitVec 4) (cpu : Cpu) (a b : BitVec 32) : CommandWord :=
  op ++ BitVec.ofBool cpu.isSub ++ (0 : BitVec 3) ++ a ++ b

/-- R78: the fields the operation uses as R72 places them, and `0` everywhere else. -/
def encode : Instr → CommandWord
  | .init         => packFields 0 .main 0 0
  | .start        => packFields 1 .main 0 0
  | .stop         => packFields 2 .main 0 0
  | .poll         => packFields 3 .main 0 0
  | .beginread    => packFields 4 .main 0 0
  | .readword cpu => packFields 5 cpu 0 0
  | .ack          => packFields 6 .main 0 0
  | .seek a b     => packFields 7 .main a b
  | .mode cpu     => packFields 8 cpu 0 0
  | .setdest code => packFields 9 .main (code.setWidth 32) 0
  | .setdma addr  => packFields 10 .main (addr.setWidth 32) 0

/-- The bits of the command word an operation uses: its operation code, and the fields R72 takes its operands from.
Every other bit is ignored (R73). -/
def usedBits : Instr → CommandWord
  | .init | .start | .stop | .poll | .beginread | .ack => 0xF00000000000000000
  | .readword _ | .mode _ => 0xF80000000000000000
  | .seek _ _             => 0xF0FFFFFFFFFFFFFFFF
  | .setdest _            => 0xF0000000FF00000000
  | .setdma _             => 0xF00000FFFF00000000

/-! ### The opcode map of R74 -/

/-- The three operand shapes of R71. -/
inductive OperandFormat where
  /-- No operand. -/
  | N
  /-- The requester. -/
  | C
  /-- Values. -/
  | V
  deriving DecidableEq, Repr

/-- One row of R74's table. -/
structure OpcodeRow where
  op       : BitVec 4
  mnemonic : String
  format   : OperandFormat
  bits     : CommandWord
  mask     : CommandWord
  deriving DecidableEq, Repr

/-- R74's table, in its order. -/
def opcodeTable : List OpcodeRow :=
  [ ⟨0,  "INIT",      .N, 0x000000000000000000, 0xF00000000000000000⟩,
    ⟨1,  "START",     .N, 0x100000000000000000, 0xF00000000000000000⟩,
    ⟨2,  "STOP",      .N, 0x200000000000000000, 0xF00000000000000000⟩,
    ⟨3,  "POLL",      .N, 0x300000000000000000, 0xF00000000000000000⟩,
    ⟨4,  "BEGINREAD", .N, 0x400000000000000000, 0xF00000000000000000⟩,
    ⟨5,  "READWORD",  .C, 0x500000000000000000, 0xF00000000000000000⟩,
    ⟨6,  "ACK",       .N, 0x600000000000000000, 0xF00000000000000000⟩,
    ⟨7,  "SEEK",      .V, 0x700000000000000000, 0xF00000000000000000⟩,
    ⟨8,  "MODE",      .C, 0x800000000000000000, 0xF00000000000000000⟩,
    ⟨9,  "SETDEST",   .V, 0x900000000000000000, 0xF00000000000000000⟩,
    ⟨10, "SETDMA",    .V, 0xA00000000000000000, 0xF00000000000000000⟩ ]

/-- The command word's bits match the row's pattern under the row's mask (R74). -/
def OpcodeRow.matchesWord (r : OpcodeRow) (w : CommandWord) : Bool := decide (w &&& r.mask = r.bits)

/-! ### Listings (R80, R81) -/

/-- The command words of one listing line. A pseudo-operation is its fixed expansion (R81); `DRAIN` reads
`WORDS_PER_SECTOR` words, so the expansion depends on the parameters. A number fills a 32-bit operand field. -/
def assemble (p : Params) : Listing → List CommandWord
  | .init         => [packFields 0 .main 0 0]
  | .start        => [packFields 1 .main 0 0]
  | .stop         => [packFields 2 .main 0 0]
  | .poll         => [packFields 3 .main 0 0]
  | .beginread    => [packFields 4 .main 0 0]
  | .readword cpu => [packFields 5 cpu 0 0]
  | .ack          => [packFields 6 .main 0 0]
  | .seek a b     => [packFields 7 .main (BitVec.ofNat 32 a) (BitVec.ofNat 32 b)]
  | .mode cpu     => [packFields 8 cpu 0 0]
  | .setdest c    => [packFields 9 .main (BitVec.ofNat 32 c) 0]
  | .setdma a     => [packFields 10 .main (BitVec.ofNat 32 a) 0]
  | .readn cpu n  => List.replicate n (packFields 5 cpu 0 0)
  | .drain cpu    => packFields 4 .main 0 0 :: List.replicate p.wordsPerSector (packFields 5 cpu 0 0) ++ [packFields 6 .main 0 0]
  | .play s t     => [packFields 7 .main (BitVec.ofNat 32 s) (BitVec.ofNat 32 t), packFields 1 .main 0 0]

end Sys2Proof
end

