-- ==== Sys2Proof/Machine/State.lean ====
section
/-! DEFINITION. The machine's state as plain data: the CDC state record of R20, the parameters (R39), and what stands at the block's boundary: the operations still to come, the sector source, the response, the diagnostic log. -/

namespace Sys2Proof.Machine

/-- The slot store (R24, R51): pairs of a linear word address `slot * WORDS_PER_SECTOR + offset` and the 16-bit word there, addresses
strictly rising. A word no `RefillPass` has written is not listed and has no value here (R46; notes/assumptions/3.md, 4.md). -/
abbrev Memory := List (Nat × Word)

/-- The sector source (R176): the answers the environment has written down, by call number, and the source's own cursor, the
number of calls of `NextSectorBytes()` made so far. The block only ever calls it (R38). -/
structure SectorSource where
  script : List (List Byte)
  calls  : Nat
  deriving DecidableEq, Repr

/-- The response of an operation (R76). `bind none` is `Bind(0,-)`, which carries no header; `bind (some h)` is `Bind(1, h)`. -/
inductive Response where
  | done
  | ready (r : Bool)
  | bind (header : Option HeaderWord)
  | word (v : Word)
  deriving DecidableEq, Repr

/-- The failure conditions, by the spec's labels (R161). They are reported by a response and recorded nowhere. -/
inductive Condition where
  /-- `BUSY_EMPTY`: `BEGINREAD` while no sector is buffered. -/
  | busyEmpty
  /-- `BUSY_BOUND`: `BEGINREAD` while another read is still bound. -/
  | busyBound
  /-- `INVALID_DEST`: `BEGINREAD` with a routing code other than `2`, `3`, `5`, `7`. -/
  | invalidDest
  /-- `WRONG_MASTER`: `READWORD` or `MODE` by the CPU that is not the target. -/
  | wrongMaster
  /-- `NOT_BOUND`: `READWORD` by the target while nothing is bound. -/
  | notBound
  deriving DecidableEq, Repr

/-- The machine's state. -/
structure State where
  /-- The OPEN parameters (R10 to R14, R39); no operation writes them. -/
  params            : Params
  /-- R21: the linear index of the next sector to be read. -/
  currentSector     : SectorWord
  /-- R22: the sectors left in the streaming run; `0` is unbounded. -/
  sectorsRemaining  : SectorWord
  /-- R23: whether the refill loop may pull new sectors. -/
  reading           : Bool
  /-- R24: `Slot`, the ring store. -/
  slots             : Memory
  /-- R25: the drain index. -/
  readIndex         : Nat
  /-- R26: the fill index. -/
  writeIndex        : Nat
  /-- R27: the number of buffered sectors. -/
  occupancy         : Nat
  /-- R28: a read has been issued and not yet acknowledged. -/
  bound             : Bool
  /-- R29: the slot the bound read targets. -/
  boundSlotIndex    : Nat
  /-- R30: the next word offset to deliver. -/
  wordCursor        : Nat
  /-- R31: the CPU authorized to read, `true` = sub CPU. -/
  targetIsSubCpu    : Bool
  /-- R32: the last-programmed routing code. -/
  deviceDestination : Byte
  /-- R33: the last-programmed DMA target address, an output to the external DMA engine (R178). -/
  dmaAddress        : Word
  /-- The sector source, outside the CDC state (R38, R176). -/
  source            : SectorSource
  /-- The command words the driver has still to issue, oldest first: the environment's input (R9, R39). -/
  commands          : List CommandWord
  /-- The response of the last operation (R76); none before the first. -/
  response          : Option Response
  /-- The diagnostic sink's log, oldest first, outside the CDC state (R38, R177). -/
  diagLog           : List Byte
  deriving DecidableEq, Repr

/-- The block has no fault state (R160): no constructor, so no step can end in a fault. Nothing raises one. -/
inductive Fault
  deriving DecidableEq, Repr

/-- The ways a step is refused. All are safe: the model stops where the spec gives no step. -/
inductive Refusal where
  /-- An instruction without a meaning, raised by `exec`'s refused arms only (there are none). Safe. -/
  | notModelled (mnemonic : String)
  /-- A command word whose operation code R75 reserves, raised by `step`: `refuse` (93_implementation_defined.md U8). Safe. -/
  | reservedOperation (op : BitVec 4)
  /-- No operation is pending, raised by `step`: the block has no step of its own (R8). Safe (notes/assumptions/6.md). -/
  | noOperation
  /-- `Consume` called against its precondition, raised by `ACK` in states that no run reaches: `refuse` (R106;
  93_implementation_defined.md U12). Safe (notes/assumptions/7.md). -/
  | consumePrecondition
  deriving DecidableEq, Repr

/-- The reset state at a parameter set (R46, R190): the CDC record as `INIT` leaves it, no slot word written, the source's cursor
at its first answer, no operation pending, no response yet, an empty diagnostic log. DESIGN CHOICE for the values R46 marks as the spec's own and for the
fields that are the model's (notes/assumptions/8.md, 9.md). -/
def State.resetOf (p : Params) : State where
  params            := p
  currentSector     := 0
  sectorsRemaining  := 0
  reading           := false
  slots             := []
  readIndex         := 0
  writeIndex        := 0
  occupancy         := 0
  bound             := false
  boundSlotIndex    := 0
  wordCursor        := p.wordsPerSector
  targetIsSubCpu    := true
  deviceDestination := 3
  dmaAddress        := 0
  source            := ⟨[], 0⟩
  commands          := []
  response          := none
  diagLog           := []

/-- The machine right after reset, at the spec's default parameters (R10, R12, R14, R46). -/
def State.reset : State := State.resetOf Params.default

end Sys2Proof.Machine
end

