-- ==== Sys2Proof/Machine/Ops.lean ====
section
/-! DEFINITION. The named operations over the slot store and the state record that the meanings share. Every write of a field of State goes through one of them. The block has no exception to take and none to return from (R160, R165, R166): a failure is an ordinary response. -/

namespace Sys2Proof.Machine

/-! ### The slot store (R24, R51, R57) -/

/-- The word listed at a linear word address, if a refill has written one. -/
def Memory.read : Memory → Nat → Option Word
  | [], _ => none
  | (a, v) :: rest, b => if a = b then some v else Memory.read rest b

/-- The entries of consecutive words from a linear word address on. -/
def Memory.block (base : Nat) : List Word → Memory
  | [] => []
  | v :: vs => (base, v) :: Memory.block (base + 1) vs

/-- Stores consecutive words from a linear word address on: whatever was listed there is replaced, everything else stays. -/
def Memory.writeBlock (m : Memory) (base : Nat) (vs : List Word) : Memory :=
  m.filter (fun c => decide (c.1 < base)) ++ (Memory.block base vs ++ m.filter (fun c => decide (base + vs.length ≤ c.1)))

/-- The canonical form: addresses strictly rising. An unlisted address has no value, so no entry equals what one reads as. -/
def Memory.wf : Memory → Bool
  | [] => true
  | (a, _) :: rest => rest.all (fun c => decide (a < c.1)) && Memory.wf rest

/-- The linear word address of offset `w` of slot `s` (R51). -/
def wordAddress (p : Params) (s w : Nat) : Nat := s * p.wordsPerSector + w

/-- `Slot[s][w]` (R17), where the word exists and has been written. -/
def slotWord? (st : State) (s w : Nat) : Option Word :=
  if s < st.params.capacity ∧ w < st.params.wordsPerSector then st.slots.read (wordAddress st.params s w) else none

/-- `Slot[s][w]` as an operation reads it. A word that no refill has written is `any value` (93_implementation_defined.md U10):
the free value of its address. -/
def slotWord (st : State) (s w : Nat) : Word :=
  (slotWord? st s w).getD (Config.unwrittenWord (wordAddress st.params s w))

/-! ### Writes of the state record -/

/-- The operation's response (R76). -/
def State.answer (r : Response) (s : State) : State := { s with response := some r }

/-- `reading <- b` (R23). -/
def State.setReading (b : Bool) (s : State) : State := { s with reading := b }

/-- `current_sector <- a; sectors_remaining <- b` (R143). -/
def State.setPosition (a b : SectorWord) (s : State) : State := { s with currentSector := a, sectorsRemaining := b }

/-- `sectors_remaining <- sectors_remaining - 1` (R100). -/
def State.countDown (s : State) : State := { s with sectorsRemaining := s.sectorsRemaining - 1 }

/-- `device_destination <- code` (R145). -/
def State.setDestination (code : Byte) (s : State) : State := { s with deviceDestination := code }

/-- `dma_address <- addr` (R146). -/
def State.setDmaAddress (addr : Word) (s : State) : State := { s with dmaAddress := addr }

/-- The four writes of a successful `BEGINREAD` (R121). -/
def State.bindOldest (target : Bool) (s : State) : State :=
  { s with targetIsSubCpu := target, boundSlotIndex := s.readIndex, wordCursor := 0, bound := true }

/-- `word_cursor <- word_cursor + 1` (R125). -/
def State.advanceCursor (s : State) : State := { s with wordCursor := s.wordCursor + 1 }

/-- `bound <- 0` (R128). -/
def State.unbind (s : State) : State := { s with bound := false }

/-- The two writes of `Consume` (R105). -/
def State.releaseOldest (s : State) : State :=
  { s with occupancy := s.occupancy - 1, readIndex := (s.readIndex + 1) % s.params.capacity }

/-- Stores the words of one sector in the slot at `write_index` and advances the fill side: the part of a refill iteration that
R100 lists before the counter, with the call of the source it makes (R109). -/
def State.pushSector (words : List Word) (s : State) : State :=
  { s with
    slots         := s.slots.writeBlock (wordAddress s.params s.writeIndex 0) words
    writeIndex    := (s.writeIndex + 1) % s.params.capacity
    occupancy     := s.occupancy + 1
    currentSector := s.currentSector + 1
    source        := { s.source with calls := s.source.calls + 1 } }

/-- `emit Diag(c)` (R17, R177): the sink's log is append-only. -/
def State.emitDiag (c : Byte) (s : State) : State := { s with diagLog := s.diagLog ++ [c] }

/-- The writes of `INIT` (R140): every field of the CDC record but `Slot` takes its reset value. -/
def State.resetRecord (s : State) : State :=
  { s with
    currentSector     := 0
    sectorsRemaining  := 0
    reading           := false
    readIndex         := 0
    writeIndex        := 0
    occupancy         := 0
    bound             := false
    boundSlotIndex    := 0
    wordCursor        := s.params.wordsPerSector
    targetIsSubCpu    := true
    deviceDestination := 3
    dmaAddress        := 0 }

/-- The operations still to come become `ws`. -/
def State.setCommands (ws : List CommandWord) (s : State) : State := { s with commands := ws }

/-! ### Outcomes -/

/-- The operation completes with a response, in the same step (R59, R76). -/
def respond (r : Response) (s : State) : Host.Outcome State Fault Refusal := .next (s.answer r)

/-! ### Taking the next operation -/

/-- The next operation the driver issues, and the state with it taken: operations arrive one at a time, in the driver's order
(R9, R37, R61). -/
def fetchCommand (s : State) : Option (CommandWord × State) :=
  match s.commands with
  | []      => none
  | w :: ws => some (w, s.setCommands ws)

/-- The state with a command word put in front of the operations still to come. -/
def issueFirst (w : CommandWord) (s : State) : State := s.setCommands (w :: s.commands)

/-! ### The packed response word (R76) -/

/-- The 33-bit response word `RW`. `RW[31:0]` of a failed bind is unspecified (93_implementation_defined.md U7): it is the
argument `free`, and a statement about a packed response holds for every value of it (notes/assumptions/16.md). -/
def packResponse (free : BitVec 32) : Response → BitVec 33
  | .done          => 1#1 ++ 0#32
  | .ready r       => BitVec.ofBool r ++ 0#32
  | .bind none     => 0#1 ++ free
  | .bind (some h) => 1#1 ++ h
  | .word v        => 1#1 ++ v.setWidth 32

end Sys2Proof.Machine
end

