-- ==== Sys2Proof/Machine/Operands.lean ====
section
/-! DEFINITION. What the operations do with an operand or a register that selects something: the routing code (R123) and the requester (R167). R72's placing of operands in the command word is Decode.lean's. -/

namespace Sys2Proof.Machine

/-- R123: the target a routing code selects, `true` = sub CPU; none for the 252 codes that select nothing. -/
def targetOfCode (code : Byte) : Option Bool :=
  if code = 2 then some false
  else if code = 3 ∨ code = 5 ∨ code = 7 then some true
  else none

/-- The requester is the CPU authorized to read (R167): `cpu = target_is_sub_cpu`. -/
def isTarget (cpu : Cpu) (s : State) : Bool := cpu.isSub == s.targetIsSubCpu

/-- The checks of `BEGINREAD`, after its refill, in R122's order: the target, or the condition that is reported (R163). -/
def bindCheck (s : State) : Except Condition Bool :=
  if s.occupancy = 0 then .error .busyEmpty
  else if s.bound then .error .busyBound
  else match targetOfCode s.deviceDestination with
    | some t => .ok t
    | none   => .error .invalidDest

/-- The checks of `READWORD` in R163's order; none if a word is read. -/
def readCheck (cpu : Cpu) (s : State) : Option Condition :=
  if !isTarget cpu s then some .wrongMaster
  else if !s.bound then some .notBound
  else none

/-- The value `READWORD` returns under `WRONG_MASTER` and under `NOT_BOUND` (R126). UNVERIFIED on silicon
(notes/assumptions/12.md). -/
def readSentinel : Word := 0

end Sys2Proof.Machine
end

