-- ==== Sys2Proof/Machine/Flags.lean ====
section
/-! DEFINITION. The two status flags, functions of the cursor stored nowhere (R35), and the value `MODE` returns (R147, R148). -/

namespace Sys2Proof.Machine

/-- `EDT`, end of data transfer: `word_cursor >= WORDS_PER_SECTOR - 1` (R35). -/
def edt (s : State) : Bool := decide (s.params.wordsPerSector - 1 ≤ s.wordCursor)

/-- `DSR`, data set ready: `word_cursor != WORDS_PER_SECTOR` (R35). -/
def dsr (s : State) : Bool := decide (s.wordCursor ≠ s.params.wordsPerSector)

/-- The mask of `EDT`, bit 15 (R148); also the value a mismatched CPU gets (R147; UNVERIFIED on silicon, notes/assumptions/12.md). -/
def edtMask : Word := 0x8000

/-- The mask of `DSR`, bit 14 (R148). -/
def dsrMask : Word := 0x4000

/-- The value built from zero by or-ing the masks of the flags that are set (R147, R148). -/
def flagWord (e d : Bool) : Word := (if e then edtMask else 0) ||| (if d then dsrMask else 0)

/-- The value of `MODE` for a requester (R147). -/
def modeValue (cpu : Cpu) (s : State) : Word :=
  if isTarget cpu s then flagWord (edt s) (dsr s) else edtMask

end Sys2Proof.Machine
end

