-- ==== Sys2Proof/Machine/Timecode.lean ====
section
/-! DEFINITION. The timecode encoder (R90 to R96): a pure function of a sector index and the mode byte, and its packing into header words. -/

namespace Sys2Proof.Machine

/-- `BCD(v)`: `(tens << 4) | ones`, unguarded and truncated to a byte (R90, R91). DESIGN CHOICE for 100 and more
(notes/assumptions/13.md). -/
def bcd (v : Nat) : Byte := BitVec.ofNat 8 (((v / 10) <<< 4) ||| (v % 10))

/-- 75 sectors a second (R16). -/
def sectorsPerSecond : Nat := 75

/-- 60 seconds a minute (R16). -/
def secondsPerMinute : Nat := 60

/-- 4500 sectors a minute (R16, R92). -/
def sectorsPerMinute : Nat := sectorsPerSecond * secondsPerMinute

/-- The minute number of a sector index, with no offset (R92, R95). -/
def minuteOf (n : Nat) : Nat := n / sectorsPerMinute

/-- The second number of a sector index (R92). -/
def secondOf (n : Nat) : Nat := (n / sectorsPerSecond) % secondsPerMinute

/-- The frame number of a sector index (R92). -/
def frameOf (n : Nat) : Nat := n % sectorsPerSecond

/-- The four bytes of `EncodeHeader` (R92). -/
structure Header where
  minute : Byte
  second : Byte
  frame  : Byte
  mode   : Byte
  deriving DecidableEq, Repr

/-- `EncodeHeader(sector_index)` (R92). -/
def encodeHeader (modeByte : Byte) (n : SectorWord) : Header where
  minute := bcd (minuteOf n.toNat)
  second := bcd (secondOf n.toNat)
  frame  := bcd (frameOf n.toNat)
  mode   := modeByte

/-- Two bytes as a word, the first in the high byte: the one byte order of the block (R53, R54). -/
def bigEndian (hi lo : Byte) : Word := hi ++ lo

/-- Header word 0: minute, second (R54, R93). DESIGN CHOICE: the packing of the header bytes (notes/assumptions/14.md). -/
def headerWord0 (h : Header) : Word := bigEndian h.minute h.second

/-- Header word 1: frame, mode (R54, R93). -/
def headerWord1 (h : Header) : Word := bigEndian h.frame h.mode

/-- The first two words of a slot combined big-endian (R55). -/
def header32 (word0 word1 : Word) : HeaderWord := word0 ++ word1

end Sys2Proof.Machine
end

