-- ==== Sys2Proof/Machine/Ring.lean ====
section
/-! DEFINITION. The sector ring buffer (R100 to R112): the call of the sector source, `StoreSector`, `RefillPass`, `Consume`. -/

namespace Sys2Proof.Machine

/-- Byte `j` of the answer to call `k` of the sector source (R176): the environment's, where it wrote one down; otherwise the
oracle's free value. -/
def sourceByte (src : SectorSource) (k j : Nat) : Byte :=
  match src.script[k]? with
  | some answer => answer.getD j (Config.sourceByte k j)
  | none        => Config.sourceByte k j

/-- `NextSectorBytes()`: the answer to the source's next call, always exactly `SECTOR_BYTES` bytes (R17, R176). -/
def nextSectorBytes (s : State) : List Byte :=
  (List.range s.params.sectorBytes).map (sourceByte s.source s.source.calls)

/-- Payload bytes as big-endian words (R53). -/
def packPayload : List Byte → List Word
  | hi :: lo :: rest => bigEndian hi lo :: packPayload rest
  | _                => []

/-- The words `StoreSector` writes, in slot order: two header words, then the payload (R52, R101). -/
def sectorWords (modeByte : Byte) (n : SectorWord) (payload : List Byte) : List Word :=
  headerWord0 (encodeHeader modeByte n) :: headerWord1 (encodeHeader modeByte n) :: packPayload payload

/-- The loop test of `RefillPass` (R100). -/
def canRefill (s : State) : Bool := s.reading && decide (s.occupancy < s.params.capacity)

/-- The sector stored by one iteration: the next answer of the source under the header of `current_sector` (R101, R109). -/
def storeNext (s : State) : State :=
  s.pushSector (sectorWords s.params.modeByte s.currentSector (nextSectorBytes s))

/-- The counter part of one iteration (R100, R103): a nonzero count goes down, and reaching 0 clears `reading`. -/
def countSector (s : State) : State :=
  if s.sectorsRemaining = 0 then s
  else if s.countDown.sectorsRemaining = 0 then s.countDown.setReading false
  else s.countDown

/-- One iteration of the loop of `RefillPass` (R100). Clearing `reading` makes the loop test fail, which is R100's `return`. -/
def refillStep (s : State) : State := countSector (storeNext s)

/-- The loop of `RefillPass` for at most the given number of iterations. -/
def refillLoop : Nat → State → State
  | 0, s => s
  | n + 1, s => if canRefill s then refillLoop n (refillStep s) else s

/-- `RefillPass()` (R100). A pass makes at most `CAPACITY - occupancy` iterations (R102), so the bound cuts nothing off. -/
def refillPass (s : State) : State := refillLoop (s.params.capacity - s.occupancy) s

/-- `Consume(slot)` (R105), refused against its precondition (R106). -/
def consume (slot : Nat) (s : State) : Option State :=
  if 0 < s.occupancy ∧ slot = s.readIndex then some s.releaseOldest else none

end Sys2Proof.Machine
end

