-- ==== Sys2Proof/Machine/Control.lean ====
section
/-! DEFINITION. The status and control surface: the meanings of `INIT`, `START`, `STOP`, `SEEK`, `SETDEST`, `SETDMA` and `MODE` (R140 to R150). -/

namespace Sys2Proof.Machine

/-- `INIT` (R140): no refill, no call of the source, the slot words stay (R191). -/
def execInit (s : State) : Host.Outcome State Fault Refusal := respond .done s.resetRecord

/-- `START` (R141). -/
def execStart (s : State) : Host.Outcome State Fault Refusal := respond .done (refillPass (s.setReading true))

/-- `STOP` (R142): no refill. -/
def execStop (s : State) : Host.Outcome State Fault Refusal := respond .done (s.setReading false)

/-- `SEEK sector_index, total_sectors` (R143, R144). -/
def execSeek (sectorIndex totalSectors : SectorWord) (s : State) : Host.Outcome State Fault Refusal :=
  respond .done (refillPass (s.setPosition sectorIndex totalSectors))

/-- `SETDEST code` (R145): no validation at set time. -/
def execSetdest (code : Byte) (s : State) : Host.Outcome State Fault Refusal := respond .done (s.setDestination code)

/-- `SETDMA addr` (R146). -/
def execSetdma (addr : Word) (s : State) : Host.Outcome State Fault Refusal := respond .done (s.setDmaAddress addr)

/-- `MODE cpu` (R147): a pure read. -/
def execMode (cpu : Cpu) (s : State) : Host.Outcome State Fault Refusal := respond (.word (modeValue cpu s)) s

end Sys2Proof.Machine
end

