-- ==== Sys2Proof/Machine/Transfer.lean ====
section
/-! DEFINITION. The host transfer state machine: the meanings of `POLL`, `BEGINREAD`, `READWORD` and `ACK` (R120 to R130). -/

namespace Sys2Proof.Machine

/-- `POLL` (R120). -/
def execPoll (s : State) : Host.Outcome State Fault Refusal :=
  respond (.ready (decide (0 < (refillPass s).occupancy))) (refillPass s)

/-- The header of the slot at `read_index` (R124). -/
def oldestHeader (s : State) : HeaderWord :=
  header32 (slotWord s s.readIndex 0) (slotWord s s.readIndex 1)

/-- What a failing `BEGINREAD` does besides its response: `INVALID_DEST` emits one diagnostic, the busy conditions nothing
(R123, R161). -/
def reportBindFailure (c : Condition) (s : State) : State :=
  match c with
  | .invalidDest => s.emitDiag s.deviceDestination
  | .busyEmpty | .busyBound | .wrongMaster | .notBound => s

/-- The part of `BEGINREAD` after its refill (R121, R122). -/
def bindOrFail (s : State) : Host.Outcome State Fault Refusal :=
  match bindCheck s with
  | .error c => respond (.bind none) (reportBindFailure c s)
  | .ok t    => respond (.bind (some (oldestHeader s))) (s.bindOldest t)

/-- `BEGINREAD` (R121): the refill comes first, whatever the checks then say. -/
def execBeginread (s : State) : Host.Outcome State Fault Refusal := bindOrFail (refillPass s)

/-- `READWORD cpu` (R125): the sentinels, the sticky repeat, or the next word. -/
def execReadword (cpu : Cpu) (s : State) : Host.Outcome State Fault Refusal :=
  match readCheck cpu s with
  | some _ => respond (.word readSentinel) s
  | none   =>
    if s.wordCursor = s.params.wordsPerSector then
      respond (.word (slotWord s s.boundSlotIndex (s.params.wordsPerSector - 1))) s
    else
      respond (.word (slotWord s s.boundSlotIndex s.wordCursor)) s.advanceCursor

/-- `ACK` (R128): nothing if nothing is bound, otherwise the transfer ends and its slot is released. It does not write the cursor
(90_conflicts.md C1; DESIGN CHOICE, notes/assumptions/15.md). -/
def execAck (s : State) : Host.Outcome State Fault Refusal :=
  if s.bound then
    match consume s.boundSlotIndex s.unbind with
    | some t => respond .done t
    | none   => .refused .consumePrecondition
  else respond .done s

end Sys2Proof.Machine
end

