-- ==== Sys2Proof/Machine/Dispatch.lean ====
section
/-! DEFINITION. One operation on the state: one arm per constructor of `Instr`. -/

namespace Sys2Proof.Machine

def exec (i : Instr) (s : State) : Host.Outcome State Fault Refusal :=
  match i with
  | .init => Sys2Proof.Machine.execInit s
  | .start => Sys2Proof.Machine.execStart s
  | .stop => Sys2Proof.Machine.execStop s
  | .poll => Sys2Proof.Machine.execPoll s
  | .beginread => Sys2Proof.Machine.execBeginread s
  | .readword cpu => Sys2Proof.Machine.execReadword cpu s
  | .ack => Sys2Proof.Machine.execAck s
  | .seek sectorIndex totalSectors => Sys2Proof.Machine.execSeek sectorIndex totalSectors s
  | .mode cpu => Sys2Proof.Machine.execMode cpu s
  | .setdest code => Sys2Proof.Machine.execSetdest code s
  | .setdma addr => Sys2Proof.Machine.execSetdma addr s

end Sys2Proof.Machine
end

