-- ==== Sys2Proof/Machine/Step.lean ====
section
/-! DEFINITION. One step of the machine: the next operation of the driver's sequence, whole (R9, R59), and the fold of R9 over a sequence of operations. -/

namespace Sys2Proof.Machine

/-- One step is one whole operation (R9): the next command word is taken, decoded and performed to completion (R150). A reserved
code is refused (R75); with no operation to come there is no step (R8). -/
def step (s : State) : Host.Outcome State Fault Refusal :=
  match fetchCommand s with
  | none => .refused .noOperation
  | some (w, t) =>
    match decode w with
    | .ok i => exec i t
    | .error (.reservedOperation op) => .refused (.reservedOperation op)

/-- The state whose very next step runs the command word of the given table word: it is put in front of the operations to come
(notes/assumptions/6.md). -/
def State.withFetchWord (s : State) (nbits w : Nat) : State := issueFirst (BitVec.ofNat 72 (w % 2 ^ nbits)) s

/-- The fold of the operations over a finite sequence (R9), up to the first refusal. -/
def execAll : List Instr → State → Host.Outcome State Fault Refusal
  | [], s => .next s
  | i :: is, s =>
    match exec i s with
    | .next t    => execAll is t
    | .fault f   => .fault f
    | .refused r => .refused r

/-- The responses of a finite sequence of operations, in order; none if one is refused. -/
def responses : List Instr → State → Option (List Response)
  | [], _ => some []
  | i :: is, s =>
    match exec i s with
    | .next t =>
      match t.response, responses is t with
      | some r, some rs => some (r :: rs)
      | _, _            => none
    | .fault _   => none
    | .refused _ => none

end Sys2Proof.Machine
end

