-- ==== Sys2Proof/Safety.lean ====
section
/-! DEFINITION. The terms claims are stated in: the invariants of the block (R40 to R45), the occupied range, and what one refill pass leaves behind, written out from R101 and R102 without the loop. -/

namespace Sys2Proof.Machine

/-! ### The occupied range (R45) -/

/-- The `i`-th slot of the occupied range, the oldest first: `(read_index + i) mod CAPACITY` (R45). -/
def occupiedSlot (s : State) (i : Nat) : Nat := (s.readIndex + i) % s.params.capacity

/-- All words of one slot, in delivery order (R52). -/
def slotWords (s : State) (slot : Nat) : List Word := (List.range s.params.wordsPerSector).map (slotWord s slot)

/-- The buffered sectors as a queue, the oldest first (R45, R108). -/
def contents (s : State) : List (List Word) := (List.range s.occupancy).map fun i => slotWords s (occupiedSlot s i)

/-! ### Invariants -/

/-- The invariants of the block: R40 to R45, with a legal parameter set (R10, R12) and a slot store in canonical form that
lists no word outside the store (R50). -/
structure CdcInv (s : State) : Prop where
  params     : s.params.wf = true
  /-- R40. -/
  occupancy  : s.occupancy ≤ s.params.capacity
  /-- R41. -/
  ring       : s.writeIndex = (s.readIndex + s.occupancy) % s.params.capacity
  /-- R42. -/
  cursor     : s.wordCursor ≤ s.params.wordsPerSector
  /-- R43. -/
  bound      : s.bound = true → s.boundSlotIndex = s.readIndex ∧ 1 ≤ s.occupancy
  /-- R44. -/
  readIndex  : s.readIndex < s.params.capacity
  /-- R44. -/
  boundSlot  : s.boundSlotIndex < s.params.capacity
  /-- R45 (b): every word of an occupied slot has been written by a refill. -/
  written    : ∀ i < s.occupancy, ∀ w < s.params.wordsPerSector, (slotWord? s (occupiedSlot s i) w).isSome = true
  canonical  : s.slots.wf = true
  inStore    : ∀ c ∈ s.slots, c.1 < s.params.capacity * s.params.wordsPerSector

/-! ### What a refill pass does (R101, R102) -/

/-- The number of sectors one pass stores, from the state at its start: R102's `m`. -/
def refillCount (s : State) : Nat :=
  if s.reading = false ∨ s.occupancy = s.params.capacity then 0
  else if s.sectorsRemaining = 0 then s.params.capacity - s.occupancy
  else min (s.params.capacity - s.occupancy) s.sectorsRemaining.toNat

/-- Word `w` of the `j`-th sector a pass stores: the header of `current_sector + j`, then the payload of the source's `j`-th
answer, big-endian (R52, R53, R54, R102, R109). -/
def refillWord (s : State) (j w : Nat) : Word :=
  if w = 0 then headerWord0 (encodeHeader s.params.modeByte (s.currentSector + BitVec.ofNat 32 j))
  else if w = 1 then headerWord1 (encodeHeader s.params.modeByte (s.currentSector + BitVec.ofNat 32 j))
  else bigEndian (sourceByte s.source (s.source.calls + j) (2 * (w - 2))) (sourceByte s.source (s.source.calls + j) (2 * (w - 2) + 1))

/-- `t` is what one pass leaves of `s`: R102's values, the slots it writes with their words, and everything else unchanged. That
`current_sector` wraps at 32 bits is 92_eei_decisions.md D10 (notes/assumptions/22.md). -/
structure AfterRefill (s t : State) : Prop where
  occupancy        : t.occupancy = s.occupancy + refillCount s
  writeIndex       : t.writeIndex = (s.writeIndex + refillCount s) % s.params.capacity
  currentSector    : t.currentSector = s.currentSector + BitVec.ofNat 32 (refillCount s)
  sectorsRemaining : t.sectorsRemaining.toNat = s.sectorsRemaining.toNat - refillCount s
  reading          : t.reading = (s.reading && !decide (0 < s.sectorsRemaining.toNat ∧ refillCount s = s.sectorsRemaining.toNat))
  calls            : t.source.calls = s.source.calls + refillCount s
  stored           : ∀ j < refillCount s, ∀ w < s.params.wordsPerSector,
                       slotWord? t ((s.writeIndex + j) % s.params.capacity) w = some (refillWord s j w)
  kept             : ∀ a, (∀ j < refillCount s, ∀ w < s.params.wordsPerSector,
                         a ≠ wordAddress s.params ((s.writeIndex + j) % s.params.capacity) w) → t.slots.read a = s.slots.read a
  script           : t.source.script = s.source.script
  params           : t.params = s.params
  readIndex        : t.readIndex = s.readIndex
  bound            : t.bound = s.bound
  boundSlotIndex   : t.boundSlotIndex = s.boundSlotIndex
  wordCursor       : t.wordCursor = s.wordCursor
  targetIsSubCpu   : t.targetIsSubCpu = s.targetIsSubCpu
  deviceDestination : t.deviceDestination = s.deviceDestination
  dmaAddress       : t.dmaAddress = s.dmaAddress
  commands         : t.commands = s.commands
  response         : t.response = s.response
  diagLog          : t.diagLog = s.diagLog

/-! ### Sorting the operations -/

/-- The four operations that run a refill pass (R104, R150). -/
def refills : Instr → Bool
  | .start | .poll | .beginread | .seek _ _ => true
  | .init | .stop | .readword _ | .ack | .mode _ | .setdest _ | .setdma _ => false

/-- The state in which an operation's refill pass starts: `START` sets `reading` first, `SEEK` makes its two writes first (R104). -/
def refillStart : Instr → State → State
  | .start, s    => { s with reading := true }
  | .seek a b, s => { s with currentSector := a, sectorsRemaining := b }
  | .init, s | .stop, s | .poll, s | .beginread, s | .readword _, s | .ack, s | .mode _, s | .setdest _, s | .setdma _, s => s

/-- The operations that end a bound transfer (R201). -/
def endsTransfer : Instr → Bool
  | .init | .ack => true
  | .start | .stop | .poll | .beginread | .readword _ | .seek _ _ | .mode _ | .setdest _ | .setdma _ => false

/-- The number of `READWORD`s a sequence of operations holds by one CPU, `true` = sub CPU. -/
def readsBy (sub : Bool) : List Instr → Nat
  | [] => 0
  | .readword cpu :: is => if cpu.isSub = sub then readsBy sub is + 1 else readsBy sub is
  | _ :: is => readsBy sub is

/-- The transfer state is unchanged: `bound`, the cursor, the target and the bound slot (R129). -/
def SameTransfer (s t : State) : Prop :=
  t.bound = s.bound ∧ t.wordCursor = s.wordCursor ∧ t.targetIsSubCpu = s.targetIsSubCpu ∧ t.boundSlotIndex = s.boundSlotIndex

/-- The operation was a bind that succeeded: its response carries a header (R76). -/
def bindSucceeded (t : State) : Prop := ∃ h, t.response = some (.bind (some h))

/-! ### Reading timecodes -/

/-- Both nibbles are decimal digits (R90, R94). -/
def bcdValid (b : Byte) : Prop := b.toNat / 16 ≤ 9 ∧ b.toNat % 16 ≤ 9

/-- The number two BCD digits stand for (R94). -/
def bcdValue (b : Byte) : Nat := b.toNat / 16 * 10 + b.toNat % 16

/-- The 32-bit header of a sector index (R93). -/
def headerOf (modeByte : Byte) (n : SectorWord) : HeaderWord :=
  header32 (headerWord0 (encodeHeader modeByte n)) (headerWord1 (encodeHeader modeByte n))

end Sys2Proof.Machine
end

