-- ==== Sys2Proof/Certificates/Slice0/Obligations.lean ====
section
/-! DEFINITION. The statements about the machine, from the numbered rules of spec/. A statement over a state with `CdcInv` holds in every state that meets R40 to R45, whatever the parameters, the slot words, the source's answers and the operations to come; that every operation keeps `CdcInv` is a statement of its own. -/

open Sys2Proof Sys2Proof.Machine

/-! ### Encoding and the step -/

/-- R78 (the layout is the spec's own choice, 92_eei_decisions.md D1): decoding an encoded operation gives it back, and encoding a
decoded word gives the word with its ignored fields cleared. -/
def Obligations.DecodeEncodeRoundTrip : Prop :=
  (∀ i, decode (encode i) = .ok i) ∧
  (∀ w i, decode w = .ok i → encode i = w &&& usedBits i)

/-- R74 (D1): a command word decodes to a row's operation exactly when it has the row's pattern under the row's mask, and a word that
decodes at all matches exactly one row. -/
def Obligations.OpcodeTableSelectsTheOperation : Prop :=
  (∀ r ∈ opcodeTable, ∀ w, r.matchesWord w = true ↔ ∃ i, decode w = .ok i ∧ i.mnemonic = r.mnemonic) ∧
  (∀ w i, decode w = .ok i → ∃! r, r ∈ opcodeTable ∧ r.matchesWord w = true)

/-- R73 (D4): two command words that differ only in fields the operation ignores are the same operation. -/
def Obligations.IgnoredFieldsChangeNothing : Prop :=
  ∀ v w i, decode v = .ok i → v &&& usedBits i = w &&& usedBits i → decode w = .ok i

/-- R75 (D3): exactly the operation codes from 11 on are reserved, and a reserved word is refused by a step. -/
def Obligations.ReservedCodesAreRefused : Prop :=
  ∀ w, (decode w = .error (.reservedOperation (opField w)) ↔ 11 ≤ (opField w).toNat) ∧
    (11 ≤ (opField w).toNat → ∀ s ws, s.commands = w :: ws → step s = .refused (.reservedOperation (opField w)))

/-- Words of the spec's own encoding table (95_test_vectors.md V-ENC-1, V-ENC-2) decode to the operations it names. -/
def Obligations.SpecWordsDecode : Prop :=
  decode 0x0FFFFFFFFFFFFFFFFF = .ok .init ∧
  decode 0x3800000000DEADBEEF = .ok .poll ∧
  decode 0x5F00000000DEADBEEF = .ok (.readword .sub) ∧
  decode 0x5700000000DEADBEEF = .ok (.readword .main) ∧
  decode 0x700006DDCE00000007 = .ok (.seek 449998 7) ∧
  decode 0x880000000000000000 = .ok (.mode .sub) ∧
  decode 0x900000010500000000 = .ok (.setdest 5) ∧
  decode 0xA00001234500000000 = .ok (.setdma 0x2345)

/-- R80, R81 (D25): each of the eleven listing lines and of the three pseudo-operations, its numbers fitting 32 bits, assembles to words
that decode to the operations it stands for. `SETDEST` and `SETDMA` use the low 8 and 16 bits of their number. -/
def Obligations.ListingsDecodeToTheirOperations : Prop :=
  ∀ p : Params,
    (assemble p .init).map decode = [.ok .init] ∧
    (assemble p .start).map decode = [.ok .start] ∧
    (assemble p .stop).map decode = [.ok .stop] ∧
    (assemble p .poll).map decode = [.ok .poll] ∧
    (assemble p .beginread).map decode = [.ok .beginread] ∧
    (∀ cpu, (assemble p (.readword cpu)).map decode = [.ok (.readword cpu)]) ∧
    (assemble p .ack).map decode = [.ok .ack] ∧
    (∀ cpu, (assemble p (.mode cpu)).map decode = [.ok (.mode cpu)]) ∧
    (∀ a b, (Listing.seek a b).wf = true → ∃ x y : SectorWord, (assemble p (.seek a b)).map decode = [.ok (.seek x y)] ∧
      x.toNat = a ∧ y.toNat = b) ∧
    (∀ c, (Listing.setdest c).wf = true → ∃ x : Byte, (assemble p (.setdest c)).map decode = [.ok (.setdest x)] ∧ x.toNat = c % 2 ^ 8) ∧
    (∀ c, (Listing.setdma c).wf = true → ∃ x : Word, (assemble p (.setdma c)).map decode = [.ok (.setdma x)] ∧ x.toNat = c % 2 ^ 16) ∧
    (∀ a b, (Listing.play a b).wf = true → ∃ x y : SectorWord, (assemble p (.play a b)).map decode = [.ok (.seek x y), .ok .start] ∧
      x.toNat = a ∧ y.toNat = b) ∧
    (∀ cpu n, (assemble p (.readn cpu n)).map decode = List.replicate n (.ok (.readword cpu))) ∧
    (∀ cpu, (assemble p (.drain cpu)).map decode =
      .ok .beginread :: List.replicate p.wordsPerSector (.ok (.readword cpu)) ++ [.ok .ack])

/-- R9, R150: a step takes the oldest operation to come, decodes it and performs it whole on the state with it taken; with none
to come there is no step (the model's choice, notes/assumptions/6.md). -/
def Obligations.StepRunsTheDecodedOperation : Prop :=
  (∀ s w ws i, s.commands = w :: ws → decode w = .ok i → step s = exec i { s with commands := ws }) ∧
  (∀ s nbits w i, decode (BitVec.ofNat 72 (w % 2 ^ nbits)) = .ok i → step (s.withFetchWord nbits w) = exec i s) ∧
  (∀ s, s.commands = [] → step s = .refused .noOperation)

/-! ### The timecode encoder -/

/-- R90: `BCD(v)` for `0 <= v <= 99` has the tens digit in the high nibble and the ones digit in the low nibble. -/
def Obligations.BcdPacksTwoDigits : Prop :=
  ∀ v ≤ 99, (bcd v).toNat / 16 = v / 10 ∧ (bcd v).toNat % 16 = v % 10 ∧ bcdValid (bcd v)

/-- R91 (D11): `BCD(v)` for any `v` is the same formula cut to eight bits. -/
def Obligations.BcdUnguardedIsTruncated : Prop :=
  ∀ v, (bcd v).toNat = (v / 10 * 16 + v % 10) % 256

/-- R94 (from 450000 on it rests on the spec's own choice for the minute byte, 92_eei_decisions.md D11): the ranges of the three timecode
bytes, decoding back and injectivity below 450000, and what fails from there on. -/
def Obligations.TimecodeDecodesBack : Prop :=
  ∀ modeByte : Byte,
    (∀ n : SectorWord, bcdValid (encodeHeader modeByte n).second ∧ bcdValue (encodeHeader modeByte n).second = n.toNat / 75 % 60 ∧
      bcdValid (encodeHeader modeByte n).frame ∧ bcdValue (encodeHeader modeByte n).frame = n.toNat % 75 ∧
      (n.toNat / 4500 ≤ 99 ↔ n.toNat ≤ 449999) ∧
      (encodeHeader modeByte n).minute.toNat = (n.toNat / 4500 / 10 * 16 + n.toNat / 4500 % 10) % 256 ∧
      (n.toNat < 450000 → bcdValid (encodeHeader modeByte n).minute ∧ bcdValue (encodeHeader modeByte n).minute = n.toNat / 4500) ∧
      (450000 ≤ n.toNat → n.toNat < 720000 → ¬ bcdValid (encodeHeader modeByte n).minute)) ∧
    (∀ m n : SectorWord, m.toNat < 450000 → n.toNat < 450000 → encodeHeader modeByte m = encodeHeader modeByte n → m = n) ∧
    encodeHeader modeByte 720000 = encodeHeader modeByte 0

/-- R55, R93 (the packing of the header bytes is 92_eei_decisions.md D9): minute, second, frame, mode from the high byte of the 32-bit
header down. -/
def Obligations.HeaderReadsMinuteSecondFrameMode : Prop :=
  ∀ modeByte n, (headerOf modeByte n).extractLsb' 24 8 = (encodeHeader modeByte n).minute ∧
    (headerOf modeByte n).extractLsb' 16 8 = (encodeHeader modeByte n).second ∧
    (headerOf modeByte n).extractLsb' 8 8 = (encodeHeader modeByte n).frame ∧
    (headerOf modeByte n).extractLsb' 0 8 = modeByte

/-! ### Reset and the invariants -/

/-- R40 to R45 hold in the reset state, at every legal parameter set, and R46's values, written out: an empty ring, nothing bound, not
reading and the cursor at `WORDS_PER_SECTOR` are the source's; the other values are the spec's own choice (92_eei_decisions.md D14,
notes/assumptions/8.md). -/
def Obligations.ResetMeetsTheInvariants : Prop :=
  (∀ p : Params, p.wf = true → CdcInv (State.resetOf p)) ∧ CdcInv State.reset ∧
  ∀ p : Params, let s := State.resetOf p
    s.params = p ∧ s.occupancy = 0 ∧ s.bound = false ∧ s.reading = false ∧ s.wordCursor = 2 + p.sectorBytes / 2 ∧
    s.currentSector = 0 ∧ s.sectorsRemaining = 0 ∧ s.readIndex = 0 ∧ s.writeIndex = 0 ∧ s.boundSlotIndex = 0 ∧
    s.targetIsSubCpu = true ∧ s.deviceDestination = 3 ∧ s.dmaAddress = 0

/-- R40 to R45 (R43, R44 and R45 are the spec's own derivations; the canonical form of the slot list is the model's choice,
notes/assumptions/3.md): every operation, and every step, keeps the invariants. -/
def Obligations.EveryOperationKeepsTheInvariants : Prop :=
  (∀ s i t, CdcInv s → exec i s = .next t → CdcInv t) ∧
  (∀ s t, CdcInv s → step s = .next t → CdcInv t)

/-- R160: no operation traps, aborts, blocks or suspends: in every state that meets the invariants every operation has a next state
with a response and is refused under no name. (The last clause is a remark: `Fault` has no constructor.) -/
def Obligations.EveryOperationCompletes : Prop :=
  (∀ s i, CdcInv s → ∃ t r, exec i s = .next t ∧ t.response = some r) ∧
  (∀ s i r, CdcInv s → exec i s ≠ .refused r) ∧
  (∀ s i f, exec i s ≠ .fault f)

/-- R207: any operation may follow any other: every finite sequence of operations runs to its end. -/
def Obligations.EverySequenceRuns : Prop :=
  ∀ is s, CdcInv s → ∃ t rs, execAll is s = .next t ∧ responses is s = some rs ∧ rs.length = is.length ∧ CdcInv t

/-- R76 (D2): the shape of each operation's response. -/
def Obligations.ResponseShapes : Prop :=
  ∀ s i t, exec i s = .next t →
    match i with
    | .init | .start | .stop | .ack | .seek _ _ | .setdest _ | .setdma _ => t.response = some .done
    | .poll                  => ∃ r, t.response = some (.ready r)
    | .beginread             => ∃ h, t.response = some (.bind h)
    | .readword _ | .mode _  => ∃ v, t.response = some (.word v)

/-- R76 (D2): the packed response word, whatever the unspecified bits of a failed bind are. -/
def Obligations.PackedResponses : Prop :=
  ∀ free : BitVec 32,
    packResponse free .done = 0x100000000 ∧
    (∀ r, (packResponse free (.ready r)).getLsbD 32 = r ∧ (packResponse free (.ready r)).extractLsb' 0 32 = 0) ∧
    (packResponse free (.bind none)).getLsbD 32 = false ∧
    (∀ h, (packResponse free (.bind (some h))).getLsbD 32 = true ∧ (packResponse free (.bind (some h))).extractLsb' 0 32 = h) ∧
    (∀ v : Word, (packResponse free (.word v)).toNat = 2 ^ 32 + v.toNat)

/-- R192 (derived there): what the hosts see right after reset, before any other operation. -/
def Obligations.AnswersRightAfterReset : Prop :=
  ∀ p : Params, p.wf = true →
    exec .poll (State.resetOf p) = .next { State.resetOf p with response := some (.ready false) } ∧
    exec .beginread (State.resetOf p) = .next { State.resetOf p with response := some (.bind none) } ∧
    exec .ack (State.resetOf p) = .next { State.resetOf p with response := some .done } ∧
    ∀ cpu, exec (.readword cpu) (State.resetOf p) = .next { State.resetOf p with response := some (.word 0) } ∧
      exec (.mode cpu) (State.resetOf p) = .next { State.resetOf p with response := some (.word 0x8000) }

/-! ### The control surface -/

/-- R140: in every state `INIT` completes and leaves the reset record, its values written out; the slot words and everything outside
the CDC record stay. The position, the count, the indices, the target, the routing code and the DMA address are the spec's own choice
(92_eei_decisions.md D14, notes/assumptions/8.md). -/
def Obligations.InitLeavesTheResetRecord : Prop :=
  (∀ s, exec .init s = .next { s with
    currentSector := 0, sectorsRemaining := 0, reading := false, readIndex := 0, writeIndex := 0, occupancy := 0, bound := false,
    boundSlotIndex := 0, wordCursor := s.params.wordsPerSector, targetIsSubCpu := true, deviceDestination := 3, dmaAddress := 0,
    response := some .done }) ∧
  (∀ s, exec .init s = .next { State.resetOf s.params with
    slots := s.slots, source := s.source, commands := s.commands, diagLog := s.diagLog, response := some .done })

/-- R191: reset makes no call of the sector source and does not position it, emits no diagnostic, and leaves the slot words, which no
operation can then reach: the ring is empty and nothing is bound. -/
def Obligations.ResetTouchesNoCollaborator : Prop :=
  ∀ s, ∃ t, exec .init s = .next t ∧ t.source = s.source ∧ t.diagLog = s.diagLog ∧ (∀ a, t.slots.read a = s.slots.read a) ∧
    contents t = [] ∧ t.bound = false

/-- R141: `START` completes: it sets `reading`, runs one pass from there, and writes nothing else. (The wrap of `current_sector` in a
pass is 92_eei_decisions.md D10, here and wherever `AfterRefill` stands.) -/
def Obligations.StartSetsReadingAndRefills : Prop :=
  ∀ s, CdcInv s → ∃ t, AfterRefill { s with reading := true } t ∧ exec .start s = .next { t with response := some .done }

/-- R143: `SEEK` completes with any operands: it writes the position, runs one pass from there, and writes nothing else. -/
def Obligations.SeekSetsPositionAndRefills : Prop :=
  ∀ s a b, CdcInv s → ∃ t, AfterRefill { s with currentSector := a, sectorsRemaining := b } t ∧
    exec (.seek a b) s = .next { t with response := some .done }

/-- R142: in every state `STOP` completes and clears `reading` only; refilling stays off: a later `POLL` changes nothing. -/
def Obligations.StopOnlyHaltsRefilling : Prop :=
  (∀ s, exec .stop s = .next { s with reading := false, response := some .done }) ∧
  (∀ s t, CdcInv s → exec .stop s = .next t → exec .poll t = .next { t with response := some (.ready (decide (0 < s.occupancy))) })

/-- R145, R146: in every state the two setters complete with any operand, write their register and nothing else; the routing code makes
no difference to any operation but `BEGINREAD`, and the DMA address to none. -/
def Obligations.SettersWriteOneRegister : Prop :=
  (∀ s code, exec (.setdest code) s = .next { s with deviceDestination := code, response := some .done }) ∧
  (∀ s addr, exec (.setdma addr) s = .next { s with dmaAddress := addr, response := some .done }) ∧
  (∀ s i t code, i ≠ .beginread → exec i s = .next t →
    exec i { s with deviceDestination := code } = .next t ∨
    exec i { s with deviceDestination := code } = .next { t with deviceDestination := code }) ∧
  (∀ s i t addr, exec i s = .next t →
    exec i { s with dmaAddress := addr } = .next t ∨ exec i { s with dmaAddress := addr } = .next { t with dmaAddress := addr })

/-- R147, R148, R149: `MODE` completes, changes nothing, and returns the flags to the target and exactly `0x8000` to the other CPU. -/
def Obligations.ModeReturnsTheFlags : Prop :=
  ∀ s cpu, CdcInv s → ∃ v : Word, exec (.mode cpu) s = .next { s with response := some (.word v) } ∧
    v &&& 0x3FFF = 0 ∧ v ≠ 0 ∧
    (cpu.isSub ≠ s.targetIsSubCpu → v = 0x8000) ∧
    (cpu.isSub = s.targetIsSubCpu →
      v.getLsbD 15 = decide (s.params.wordsPerSector - 1 ≤ s.wordCursor) ∧
      v.getLsbD 14 = decide (s.wordCursor ≠ s.params.wordsPerSector) ∧
      (s.wordCursor ≤ s.params.wordsPerSector - 2 → v = 0x4000) ∧
      (s.wordCursor = s.params.wordsPerSector - 1 → v = 0xC000) ∧
      (s.wordCursor = s.params.wordsPerSector → v = 0x8000))

/-- R35: what sets and clears the two flags. That `ACK` changes neither is the spec's own choice (92_eei_decisions.md D22 on
90_conflicts.md C1; notes/assumptions/15.md). -/
def Obligations.FlagsFollowTheCursor : Prop :=
  (∀ s, edt s = decide (s.wordCursor ≥ s.params.wordsPerSector - 1) ∧ dsr s = decide (s.wordCursor ≠ s.params.wordsPerSector)) ∧
  (∀ s i t, CdcInv s → exec i s = .next t →
    (i = .beginread → bindSucceeded t → edt t = false ∧ dsr t = true) ∧
    (i = .init → edt t = true ∧ dsr t = false) ∧
    (∀ cpu, i = .readword cpu → t.wordCursor ≠ s.wordCursor →
      edt t = decide (s.wordCursor + 2 ≥ s.params.wordsPerSector) ∧ dsr t = decide (s.wordCursor + 1 ≠ s.params.wordsPerSector)) ∧
    (t.wordCursor = s.wordCursor → edt t = edt s ∧ dsr t = dsr s) ∧
    (i = .ack → edt t = edt s ∧ dsr t = dsr s))

/-! ### The ring -/

/-- R104: a refill pass runs exactly once inside `START` (after setting `reading`), `POLL` (before the test), `BEGINREAD` (before every
check) and `SEEK` (after its two writes), and inside no other operation. -/
def Obligations.WhichOperationsRefill : Prop :=
  ∀ s i t, CdcInv s → exec i s = .next t →
    (refills i = true →
      t.source.calls = s.source.calls + refillCount (refillStart i s) ∧ t.occupancy = s.occupancy + refillCount (refillStart i s)) ∧
    (i = .poll → t.response = some (.ready (decide (0 < t.occupancy)))) ∧
    (i = .beginread → (bindSucceeded t ↔ t.occupancy ≠ 0 ∧ s.bound = false ∧ (targetOfCode s.deviceDestination).isSome = true)) ∧
    (refills i = false → t.source = s.source ∧ t.slots = s.slots ∧ t.occupancy ≤ s.occupancy)

/-- R110 (derived there): while the block is stopped or the ring is full, `POLL` and `SEEK`, apart from its own two writes, leave
everything as it is, and `BEGINREAD` calls no source and stores nothing. -/
def Obligations.IdlePassChangesNothing : Prop :=
  ∀ s, CdcInv s → s.reading = false ∨ s.occupancy = s.params.capacity →
    exec .poll s = .next { s with response := some (.ready (decide (0 < s.occupancy))) } ∧
    (∀ a b, exec (.seek a b) s = .next { s with currentSector := a, sectorsRemaining := b, response := some .done }) ∧
    ∃ t, exec .beginread s = .next t ∧ t.source = s.source ∧ t.slots = s.slots ∧ t.occupancy = s.occupancy ∧
      t.writeIndex = s.writeIndex ∧ t.currentSector = s.currentSector ∧ t.sectorsRemaining = s.sectorsRemaining ∧ t.reading = s.reading

/-- R53, R109: an operation calls the source once per sector it stores, and the `j`-th answer fills the payload of the `j`-th slot
written, big-endian, behind the header of the sector index `current_sector` had, whatever the source answered. An answer the
environment has written down for a call (`script` at the call's number) is the one that is stored; the form of the script is the
model's own (notes/assumptions/5.md). -/
def Obligations.RefillStoresTheSourceAnswers : Prop :=
  ∀ s i t, CdcInv s → refills i = true → exec i s = .next t →
    t.source.calls = s.source.calls + refillCount (refillStart i s) ∧ t.source.script = s.source.script ∧
    ∀ j < refillCount (refillStart i s),
      let slot := (s.writeIndex + j) % s.params.capacity
      let h := encodeHeader s.params.modeByte ((refillStart i s).currentSector + BitVec.ofNat 32 j)
      let p := sourceByte s.source (s.source.calls + j)
      slotWord? t slot 0 = some (headerWord0 h) ∧ slotWord? t slot 1 = some (headerWord1 h) ∧
      ∀ k < s.params.payloadWords, ∃ v, slotWord? t slot (2 + k) = some v ∧
        v.toNat = 256 * (p (2 * k)).toNat + (p (2 * k + 1)).toNat ∧
        ∀ answer hi lo, s.source.script[s.source.calls + j]? = some answer → answer[2 * k]? = some hi → answer[2 * k + 1]? = some lo →
          v.toNat = 256 * hi.toNat + lo.toNat

/-- R52, R54 (the packing of the header bytes is the spec's own choice, 92_eei_decisions.md D9): minute and second, then frame and mode,
each pair high byte first, stand in words 0 and 1 of a slot a refill writes. -/
def Obligations.RefillStoresTheHeader : Prop :=
  ∀ s i t, CdcInv s → refills i = true → exec i s = .next t → ∀ j < refillCount (refillStart i s),
    let slot := (s.writeIndex + j) % s.params.capacity
    let h := encodeHeader s.params.modeByte ((refillStart i s).currentSector + BitVec.ofNat 32 j)
    ∃ w0 w1, slotWord? t slot 0 = some w0 ∧ slotWord? t slot 1 = some w1 ∧
      w0.toNat = 256 * h.minute.toNat + h.second.toNat ∧ w1.toNat = 256 * h.frame.toNat + h.mode.toNat

/-- R103: what a count of 0 and a nonzero count mean to `START`, and that the end of a bounded run is told apart from an unbounded run
only by `reading`: a second `START` streams without bound. -/
def Obligations.BoundedAndUnboundedRuns : Prop :=
  ∀ s, CdcInv s → ∃ t, exec .start s = .next t ∧
    (s.sectorsRemaining = 0 → t.sectorsRemaining = 0 ∧ t.reading = true ∧ t.occupancy = s.params.capacity) ∧
    (s.sectorsRemaining ≠ 0 → s.sectorsRemaining.toNat ≤ s.params.capacity - s.occupancy →
      t.sectorsRemaining = 0 ∧ t.reading = false ∧ t.occupancy = s.occupancy + s.sectorsRemaining.toNat ∧
      ∃ u, exec .start t = .next u ∧ u.reading = true ∧ u.sectorsRemaining = 0 ∧ u.occupancy = s.params.capacity) ∧
    (s.params.capacity - s.occupancy < s.sectorsRemaining.toNat →
      t.sectorsRemaining.toNat = s.sectorsRemaining.toNat - (s.params.capacity - s.occupancy) ∧ t.reading = true ∧
      t.occupancy = s.params.capacity)

/-- R112: a bounded run of three sectors into an empty ring of at least three slots buffers exactly three and stops; a later `POLL`
buffers nothing further. -/
def Obligations.RunOfThreeSectors : Prop :=
  ∀ s, CdcInv s → s.occupancy = 0 → 3 ≤ s.params.capacity → s.sectorsRemaining = 3 →
    ∃ t, exec .start s = .next t ∧ t.occupancy = 3 ∧ t.reading = false ∧ t.source.calls = s.source.calls + 3 ∧
      exec .poll t = .next { t with response := some (.ready true) }

/-- R105, R106: `Consume` frees the oldest slot where its precondition holds and is refused where it does not; under the invariants
`ACK` never meets the refusal. That `ACK` itself is refused in a state that breaks R43 is the model's choice
(notes/assumptions/7.md): R106 does not say it. -/
def Obligations.ConsumeHasAPrecondition : Prop :=
  (∀ slot s, 0 < s.occupancy → slot = s.readIndex →
    consume slot s = some { s with occupancy := s.occupancy - 1, readIndex := (s.readIndex + 1) % s.params.capacity }) ∧
  (∀ slot s, ¬ (0 < s.occupancy ∧ slot = s.readIndex) → consume slot s = none) ∧
  (∀ s, s.bound = true → ¬ (0 < s.occupancy ∧ s.boundSlotIndex = s.readIndex) → exec .ack s = .refused .consumePrecondition) ∧
  (∀ s r, CdcInv s → exec .ack s ≠ .refused r)

/-- R45 (a), R65 (derived there): no operation but `INIT` voids or overwrites a word of an occupied slot. -/
def Obligations.OccupiedSlotsAreNeverOverwritten : Prop :=
  ∀ s i t, CdcInv s → exec i s = .next t → i ≠ .init →
    ∀ k < s.occupancy, ∀ w, slotWord? t (occupiedSlot s k) w = slotWord? s (occupiedSlot s k) w

/-- R108: the ring is a first-in first-out queue of whole sectors: a pass appends the sectors it stores, `ACK` of a bound transfer drops
the oldest, `INIT` empties it, nothing else changes it, and the header a bind returns is that of the oldest sector. -/
def Obligations.RingIsAQueue : Prop :=
  ∀ s i t, CdcInv s → exec i s = .next t →
    (refills i = true → contents t = contents s ++ (List.range (refillCount (refillStart i s))).map fun j =>
      (List.range s.params.wordsPerSector).map (refillWord (refillStart i s) j)) ∧
    (i = .ack → s.bound = true → ∃ oldest, contents s = oldest :: contents t) ∧
    (i = .init → contents t = []) ∧
    (refills i = false → i ≠ .init → ¬ (i = .ack ∧ s.bound = true) → contents t = contents s) ∧
    (∀ h, i = .beginread → t.response = some (.bind (some h)) →
      ∃ w0 w1 ws rest, contents t = (w0 :: w1 :: ws) :: rest ∧ h = w0 ++ w1)

/-- R108 (95_test_vectors.md S9): a run of `T` sectors from `S` set up by `SEEK` on an empty ring with nothing bound and a valid routing
code, then started, gives the headers of `S`, `S+1`, ..., `S+T-1` in order to `T` rounds of `BEGINREAD` and `ACK`, and nothing else.
That the sector indices wrap at 32 bits is the spec's own choice (92_eei_decisions.md D10, notes/assumptions/22.md). -/
def Obligations.SeekRunYieldsConsecutiveHeaders : Prop :=
  ∀ s a b, CdcInv s → s.occupancy = 0 → s.bound = false →
    (s.deviceDestination = 2 ∨ s.deviceDestination = 3 ∨ s.deviceDestination = 5 ∨ s.deviceDestination = 7) →
    responses (.seek a b :: .start :: (List.replicate b.toNat [Instr.beginread, Instr.ack]).flatten) s =
      some (.done :: .done :: ((List.range b.toNat).map fun k =>
        [.bind (some (headerOf s.params.modeByte (a + BitVec.ofNat 32 k))), .done]).flatten)

/-! ### The host transfer state machine -/

/-- R120: `POLL` completes: one pass, then whether a sector is buffered; nothing else is written. -/
def Obligations.PollRefillsAndReports : Prop :=
  ∀ s, CdcInv s → ∃ t, AfterRefill s t ∧ exec .poll s = .next { t with response := some (.ready (decide (0 < t.occupancy))) }

/-- R121, R122, R123, R124: `BEGINREAD` completes: one pass first, then the empty ring, the bound transfer and the routing code are
tested in this order; a failure writes nothing more but one diagnostic for an invalid code, and a success binds the oldest slot and
returns its header with the cursor at 0. -/
def Obligations.BeginReadBindsOrFails : Prop :=
  ∀ s, CdcInv s → ∃ t, AfterRefill s t ∧
    (t.occupancy = 0 → exec .beginread s = .next { t with response := some (.bind none) }) ∧
    (t.occupancy ≠ 0 → s.bound = true → exec .beginread s = .next { t with response := some (.bind none) }) ∧
    (t.occupancy ≠ 0 → s.bound = false →
      s.deviceDestination ≠ 2 ∧ s.deviceDestination ≠ 3 ∧ s.deviceDestination ≠ 5 ∧ s.deviceDestination ≠ 7 →
      exec .beginread s = .next { t with response := some (.bind none), diagLog := s.diagLog ++ [s.deviceDestination] }) ∧
    (t.occupancy ≠ 0 → s.bound = false →
      s.deviceDestination = 2 ∨ s.deviceDestination = 3 ∨ s.deviceDestination = 5 ∨ s.deviceDestination = 7 →
      ∃ (w0 w1 : Word) (h : HeaderWord), slotWord? t s.readIndex 0 = some w0 ∧ slotWord? t s.readIndex 1 = some w1 ∧
        h.toNat = 2 ^ 16 * w0.toNat + w1.toNat ∧
        exec .beginread s = .next { t with
          targetIsSubCpu := decide (s.deviceDestination ≠ 2), boundSlotIndex := s.readIndex, wordCursor := 0, bound := true,
          response := some (.bind (some h)) })

/-- R122 (95_test_vectors.md S4): `BEGINREAD` twice in a row without an `ACK` between fails the second time, and the transfer state is as
the first left it. -/
def Obligations.SecondBeginReadFails : Prop :=
  ∀ s t, CdcInv s → exec .beginread s = .next t → bindSucceeded t →
    ∃ u, exec .beginread t = .next u ∧ u.response = some (.bind none) ∧ SameTransfer t u ∧ u.diagLog = t.diagLog

/-- R125, R126: `READWORD` completes: the sentinel 0 for the CPU that is not the target and for an unbound read, the sticky repeat at
the end, otherwise the word at the cursor; only the last moves the cursor, and nothing else is written. -/
def Obligations.ReadWordDelivers : Prop :=
  ∀ s cpu, CdcInv s →
    (cpu.isSub ≠ s.targetIsSubCpu → exec (.readword cpu) s = .next { s with response := some (.word 0) }) ∧
    (cpu.isSub = s.targetIsSubCpu → s.bound = false → exec (.readword cpu) s = .next { s with response := some (.word 0) }) ∧
    (cpu.isSub = s.targetIsSubCpu → s.bound = true → s.wordCursor = s.params.wordsPerSector →
      ∃ v, slotWord? s s.boundSlotIndex (s.params.wordsPerSector - 1) = some v ∧
        exec (.readword cpu) s = .next { s with response := some (.word v) }) ∧
    (cpu.isSub = s.targetIsSubCpu → s.bound = true → s.wordCursor < s.params.wordsPerSector →
      ∃ v, slotWord? s s.boundSlotIndex s.wordCursor = some v ∧
        exec (.readword cpu) s = .next { s with wordCursor := s.wordCursor + 1, response := some (.word v) })

/-- R128: `ACK` completes: nothing where nothing is bound, otherwise the transfer ends and the oldest slot is released; the cursor, the
target and the bound slot index are not written, which is the spec's own choice (92_eei_decisions.md D22 on 90_conflicts.md C1;
notes/assumptions/15.md). No other operation but `INIT` releases a slot. -/
def Obligations.AckReleasesTheOldestSlot : Prop :=
  ∀ s, CdcInv s →
    (s.bound = false → exec .ack s = .next { s with response := some .done }) ∧
    (s.bound = true → exec .ack s = .next { s with
      bound := false, occupancy := s.occupancy - 1, readIndex := (s.readIndex + 1) % s.params.capacity, response := some .done }) ∧
    (∀ i t, exec i s = .next t → i ≠ .init → t.occupancy < s.occupancy → i = .ack)

/-- R129 (that `INIT` makes the sub CPU the target and the bound slot index 0 is 92_eei_decisions.md D14, notes/assumptions/8.md; that
`ACK` keeps the cursor, the target and the bound slot index is D22, notes/assumptions/15.md): the complete transition table of the
transfer state, with the responses it gives. -/
def Obligations.TransferTransitions : Prop :=
  ∀ s i t, CdcInv s → exec i s = .next t →
    match i with
    | .start | .stop | .poll | .seek _ _ | .mode _ | .setdest _ | .setdma _ => SameTransfer s t
    | .init =>
      t.bound = false ∧ t.wordCursor = s.params.wordsPerSector ∧ t.targetIsSubCpu = true ∧ t.boundSlotIndex = 0 ∧ t.response = some .done
    | .ack =>
      t.response = some .done ∧ t.bound = false ∧ t.wordCursor = s.wordCursor ∧ t.targetIsSubCpu = s.targetIsSubCpu ∧
      t.boundSlotIndex = s.boundSlotIndex ∧
      (s.bound = true → t.occupancy + 1 = s.occupancy) ∧ (s.bound = false → t.occupancy = s.occupancy)
    | .readword cpu =>
      t.bound = s.bound ∧ t.targetIsSubCpu = s.targetIsSubCpu ∧ t.boundSlotIndex = s.boundSlotIndex ∧
      (s.bound = false ∨ cpu.isSub ≠ s.targetIsSubCpu → t.wordCursor = s.wordCursor ∧ t.response = some (.word 0)) ∧
      (s.bound = true → cpu.isSub = s.targetIsSubCpu → s.wordCursor < s.params.wordsPerSector →
        t.wordCursor = s.wordCursor + 1 ∧ t.response = (slotWord? s s.boundSlotIndex s.wordCursor).map .word) ∧
      (s.bound = true → cpu.isSub = s.targetIsSubCpu → s.wordCursor = s.params.wordsPerSector →
        t.wordCursor = s.wordCursor ∧ t.response = (slotWord? s s.boundSlotIndex (s.params.wordsPerSector - 1)).map .word)
    | .beginread =>
      (s.bound = true ∨ t.occupancy = 0 → SameTransfer s t ∧ t.response = some (.bind none) ∧ t.diagLog = s.diagLog) ∧
      (s.bound = false → t.occupancy ≠ 0 → targetOfCode s.deviceDestination = none →
        SameTransfer s t ∧ t.response = some (.bind none) ∧ t.diagLog = s.diagLog ++ [s.deviceDestination]) ∧
      (∀ target, s.bound = false → t.occupancy ≠ 0 → targetOfCode s.deviceDestination = some target →
        t.bound = true ∧ t.wordCursor = 0 ∧ t.targetIsSubCpu = target ∧ t.boundSlotIndex = s.readIndex ∧ t.diagLog = s.diagLog ∧
        ∃ w0 w1, slotWord? t s.readIndex 0 = some w0 ∧ slotWord? t s.readIndex 1 = some w1 ∧
          t.response = some (.bind (some (w0 ++ w1))))

/-- R42: the cursor stays in its range, and only a successful bind moves it back. -/
def Obligations.CursorNeverMovesBack : Prop :=
  ∀ s i t, CdcInv s → exec i s = .next t →
    t.wordCursor ≤ t.params.wordsPerSector ∧ (¬ (i = .beginread ∧ bindSucceeded t) → s.wordCursor ≤ t.wordCursor)

/-- R130: after a bind the target's `READWORD`s deliver the bound sector's words in order, header first and agreeing with the header
the bind returned, then repeat the last word; whatever other operations but `ACK` and `INIT` stand between do not change this. -/
def Obligations.TransferDeliversInOrder : Prop :=
  (∀ s t h, CdcInv s → exec .beginread s = .next t → t.response = some (.bind (some h)) →
    t.bound = true ∧ t.wordCursor = 0 ∧ t.boundSlotIndex = s.readIndex ∧
    ∃ w0 w1, slotWord? t t.boundSlotIndex 0 = some w0 ∧ slotWord? t t.boundSlotIndex 1 = some w1 ∧ h = w0 ++ w1) ∧
  (∀ s is cpu, CdcInv s → s.bound = true → (∀ i ∈ is, endsTransfer i = false) → cpu.isSub = s.targetIsSubCpu →
    ∃ t u v, execAll is s = .next t ∧ t.bound = true ∧ t.boundSlotIndex = s.boundSlotIndex ∧ t.targetIsSubCpu = s.targetIsSubCpu ∧
      t.wordCursor = min s.params.wordsPerSector (s.wordCursor + readsBy s.targetIsSubCpu is) ∧
      slotWord? s s.boundSlotIndex (min (s.params.wordsPerSector - 1) (s.wordCursor + readsBy s.targetIsSubCpu is)) = some v ∧
      exec (.readword cpu) t = .next u ∧ u.response = some (.word v))

/-- R130 (the pseudo-operation `DRAIN` of R81): the canonical read of one sector by the target CPU returns the header, every word of the
oldest sector in order, and `Done`. -/
def Obligations.DrainReadsTheOldestSector : Prop :=
  ∀ s cpu, CdcInv s → s.bound = false → s.occupancy + refillCount s ≠ 0 → targetOfCode s.deviceDestination = some cpu.isSub →
    ∃ t w0 w1 ws, AfterRefill s t ∧ slotWords t s.readIndex = w0 :: w1 :: ws ∧
      responses (.beginread :: List.replicate s.params.wordsPerSector (.readword cpu) ++ [.ack]) s =
        some (.bind (some (w0 ++ w1)) :: (w0 :: w1 :: ws).map .word ++ [.done])

/-- R126, R167: the CPU that is not the target learns nothing of the transfer: in any two states with the same target it gets the same
answers to `READWORD` and `MODE`, and neither changes anything but the response. -/
def Obligations.OtherCpuLearnsNothing : Prop :=
  ∀ s s' cpu, s.targetIsSubCpu = s'.targetIsSubCpu → cpu.isSub ≠ s.targetIsSubCpu →
    ∃ r m, exec (.readword cpu) s = .next { s with response := some r } ∧ exec (.readword cpu) s' = .next { s' with response := some r } ∧
      exec (.mode cpu) s = .next { s with response := some m } ∧ exec (.mode cpu) s' = .next { s' with response := some m }

/-- R197 (derived there; 92_eei_decisions.md D22): after an early `ACK` the target's `MODE` keeps the flags of the stale cursor although
nothing is bound, and a `READWORD` returns 0. -/
def Obligations.EarlyAckLeavesStaleFlags : Prop :=
  ∀ s cpu, CdcInv s → s.bound = true → s.wordCursor < s.params.wordsPerSector → cpu.isSub = s.targetIsSubCpu →
    ∃ t, exec .ack s = .next t ∧ t.bound = false ∧
      exec (.mode cpu) t = .next { t with
        response := some (.word (if s.wordCursor = s.params.wordsPerSector - 1 then 0xC000 else 0x4000)) } ∧
      exec (.readword cpu) t = .next { t with response := some (.word 0) }

/-! ### The whole machine -/

/-- R177: a diagnostic is emitted once per `INVALID_DEST` failure, with the code as its content, and never otherwise. -/
def Obligations.DiagnosticsOnlyForInvalidCodes : Prop :=
  ∀ s i t, exec i s = .next t →
    (t.diagLog = s.diagLog ∨ t.diagLog = s.diagLog ++ [s.deviceDestination]) ∧
    (t.diagLog ≠ s.diagLog ↔ i = .beginread ∧ t.occupancy ≠ 0 ∧ s.bound = false ∧
      s.deviceDestination ≠ 2 ∧ s.deviceDestination ≠ 3 ∧ s.deviceDestination ≠ 5 ∧ s.deviceDestination ≠ 7)

/-- R163: which condition is reported when several hold, for the three operations that report one, and what is then done. -/
def Obligations.ConditionsHaveAnOrder : Prop :=
  (∀ s, (s.occupancy = 0 → bindCheck s = .error .busyEmpty) ∧
    (s.occupancy ≠ 0 → s.bound = true → bindCheck s = .error .busyBound) ∧
    (s.occupancy ≠ 0 → s.bound = false → targetOfCode s.deviceDestination = none → bindCheck s = .error .invalidDest)) ∧
  (∀ s t, exec .beginread s = .next t → t.occupancy = 0 ∨ s.bound = true → t.response = some (.bind none) ∧ t.diagLog = s.diagLog) ∧
  (∀ s cpu, (cpu.isSub ≠ s.targetIsSubCpu → readCheck cpu s = some .wrongMaster) ∧
    (cpu.isSub = s.targetIsSubCpu → s.bound = false → readCheck cpu s = some .notBound) ∧
    (cpu.isSub = s.targetIsSubCpu → s.bound = true → readCheck cpu s = none)) ∧
  (∀ s cpu, CdcInv s → (readCheck cpu s ≠ none → exec (.readword cpu) s = .next { s with response := some (.word 0) }) ∧
    (readCheck cpu s = none → ∃ v, slotWord? s s.boundSlotIndex (min s.wordCursor (s.params.wordsPerSector - 1)) = some v ∧
      exec (.readword cpu) s = .next { s with
        wordCursor := if s.wordCursor = s.params.wordsPerSector then s.wordCursor else s.wordCursor + 1
        response := some (.word v) })) ∧
  (∀ s cpu, (cpu.isSub ≠ s.targetIsSubCpu → exec (.mode cpu) s = .next { s with response := some (.word 0x8000) }) ∧
    (cpu.isSub = s.targetIsSubCpu → exec (.mode cpu) s = .next { s with response := some (.word (flagWord (edt s) (dsr s))) }))

/-- R34 (derived there): which operation may write which field, over all operations and all states. -/
def Obligations.OnlyTheListedOperationsWriteAField : Prop :=
  ∀ s i t, exec i s = .next t →
    t.params = s.params ∧ t.commands = s.commands ∧ t.source.script = s.source.script ∧
    (t.deviceDestination ≠ s.deviceDestination → i = .init ∨ ∃ code, i = .setdest code) ∧
    (t.dmaAddress ≠ s.dmaAddress → i = .init ∨ ∃ addr, i = .setdma addr) ∧
    (t.targetIsSubCpu ≠ s.targetIsSubCpu ∨ t.boundSlotIndex ≠ s.boundSlotIndex → i = .init ∨ (i = .beginread ∧ bindSucceeded t)) ∧
    (t.wordCursor ≠ s.wordCursor → i = .init ∨ (i = .beginread ∧ bindSucceeded t) ∨ ∃ cpu, i = .readword cpu) ∧
    (t.bound ≠ s.bound → i = .init ∨ i = .ack ∨ (i = .beginread ∧ bindSucceeded t)) ∧
    (t.readIndex ≠ s.readIndex ∨ t.occupancy < s.occupancy → i = .init ∨ i = .ack) ∧
    (t.writeIndex ≠ s.writeIndex ∨ t.currentSector ≠ s.currentSector ∨ t.sectorsRemaining ≠ s.sectorsRemaining →
      i = .init ∨ refills i = true) ∧
    (t.reading ≠ s.reading → i = .init ∨ i = .stop ∨ refills i = true) ∧
    (t.slots ≠ s.slots ∨ t.source ≠ s.source ∨ t.occupancy > s.occupancy → refills i = true)
end

