-- ==== Sys2Proof/Laws/Encoding.lean ====
section
/-! SUPPORT. The fields of a packed command word (R70), for proofs about the encoding. -/

namespace Sys2Proof

section
variable (op : BitVec 4) (cpu : Cpu) (a b : BitVec 32)

/-- A packed word as a number: the fields at the weights of R70. -/
theorem packFields_toNat : (packFields op cpu a b).toNat =
    op.toNat * 2 ^ 68 + (if cpu.isSub then 2 ^ 67 else 0) + a.toNat * 2 ^ 32 + b.toNat := by
  have ha := a.isLt
  have hb := b.isLt
  cases cpu <;>
    simp only [packFields, BitVec.toNat_append, Cpu.isSub, BitVec.ofBool_true, BitVec.ofBool_false] <;>
    rw [← Nat.shiftLeft_add_eq_or_of_lt (by omega), ← Nat.shiftLeft_add_eq_or_of_lt (by omega),
      ← Nat.shiftLeft_add_eq_or_of_lt (by decide), ← Nat.shiftLeft_add_eq_or_of_lt (by decide)] <;>
    simp [Nat.shiftLeft_eq] <;> omega

@[simp] theorem opField_packFields : opField (packFields op cpu a b) = op := by
  apply BitVec.eq_of_toNat_eq
  have := op.isLt; have := a.isLt; have := b.isLt
  cases cpu <;> simp [opField, packFields_toNat, Nat.shiftRight_eq_div_pow, Cpu.isSub] <;> omega

@[simp] theorem aField_packFields : aField (packFields op cpu a b) = a := by
  apply BitVec.eq_of_toNat_eq
  have := op.isLt; have := a.isLt; have := b.isLt
  cases cpu <;> simp [aField, packFields_toNat, Nat.shiftRight_eq_div_pow, Cpu.isSub] <;> omega

@[simp] theorem bField_packFields : bField (packFields op cpu a b) = b := by
  apply BitVec.eq_of_toNat_eq
  have := op.isLt; have := a.isLt; have := b.isLt
  cases cpu <;> simp [bField, packFields_toNat, Nat.shiftRight_eq_div_pow, Cpu.isSub] <;> omega

@[simp] theorem rsvField_packFields : rsvField (packFields op cpu a b) = 0 := by
  apply BitVec.eq_of_toNat_eq
  have := op.isLt; have := a.isLt; have := b.isLt
  cases cpu <;> simp [rsvField, packFields_toNat, Nat.shiftRight_eq_div_pow, Cpu.isSub] <;> omega

@[simp] theorem cpuField_packFields : cpuField (packFields op cpu a b) = cpu := by
  have h : (packFields op cpu a b).getLsbD 67 = cpu.isSub := by
    rw [BitVec.getLsbD, packFields_toNat, Nat.testBit_eq_decide_div_mod_eq]
    have := op.isLt; have := a.isLt; have := b.isLt
    cases cpu <;> simp [Cpu.isSub] <;> omega
  rw [cpuField, h]
  cases cpu <;> rfl

end

end Sys2Proof
end

