-- ==== Sys2Proof/Laws/State.lean ====
section
/-! SUPPORT. What each named write of the state record leaves in each field: one lemma per field per write, so that no proof unfolds a write. -/

namespace Sys2Proof.Machine.State

variable (s : State)

/-! ### `answer` (R76) -/

@[simp] theorem answer_params (r : Response) : (s.answer r).params = s.params := rfl
@[simp] theorem answer_currentSector (r : Response) : (s.answer r).currentSector = s.currentSector := rfl
@[simp] theorem answer_sectorsRemaining (r : Response) : (s.answer r).sectorsRemaining = s.sectorsRemaining := rfl
@[simp] theorem answer_reading (r : Response) : (s.answer r).reading = s.reading := rfl
@[simp] theorem answer_slots (r : Response) : (s.answer r).slots = s.slots := rfl
@[simp] theorem answer_readIndex (r : Response) : (s.answer r).readIndex = s.readIndex := rfl
@[simp] theorem answer_writeIndex (r : Response) : (s.answer r).writeIndex = s.writeIndex := rfl
@[simp] theorem answer_occupancy (r : Response) : (s.answer r).occupancy = s.occupancy := rfl
@[simp] theorem answer_bound (r : Response) : (s.answer r).bound = s.bound := rfl
@[simp] theorem answer_boundSlotIndex (r : Response) : (s.answer r).boundSlotIndex = s.boundSlotIndex := rfl
@[simp] theorem answer_wordCursor (r : Response) : (s.answer r).wordCursor = s.wordCursor := rfl
@[simp] theorem answer_targetIsSubCpu (r : Response) : (s.answer r).targetIsSubCpu = s.targetIsSubCpu := rfl
@[simp] theorem answer_deviceDestination (r : Response) : (s.answer r).deviceDestination = s.deviceDestination := rfl
@[simp] theorem answer_dmaAddress (r : Response) : (s.answer r).dmaAddress = s.dmaAddress := rfl
@[simp] theorem answer_source (r : Response) : (s.answer r).source = s.source := rfl
@[simp] theorem answer_commands (r : Response) : (s.answer r).commands = s.commands := rfl
@[simp] theorem answer_response (r : Response) : (s.answer r).response = some r := rfl
@[simp] theorem answer_diagLog (r : Response) : (s.answer r).diagLog = s.diagLog := rfl

/-! ### `setReading` (R23) -/

@[simp] theorem setReading_params (b : Bool) : (s.setReading b).params = s.params := rfl
@[simp] theorem setReading_currentSector (b : Bool) : (s.setReading b).currentSector = s.currentSector := rfl
@[simp] theorem setReading_sectorsRemaining (b : Bool) : (s.setReading b).sectorsRemaining = s.sectorsRemaining := rfl
@[simp] theorem setReading_reading (b : Bool) : (s.setReading b).reading = b := rfl
@[simp] theorem setReading_slots (b : Bool) : (s.setReading b).slots = s.slots := rfl
@[simp] theorem setReading_readIndex (b : Bool) : (s.setReading b).readIndex = s.readIndex := rfl
@[simp] theorem setReading_writeIndex (b : Bool) : (s.setReading b).writeIndex = s.writeIndex := rfl
@[simp] theorem setReading_occupancy (b : Bool) : (s.setReading b).occupancy = s.occupancy := rfl
@[simp] theorem setReading_bound (b : Bool) : (s.setReading b).bound = s.bound := rfl
@[simp] theorem setReading_boundSlotIndex (b : Bool) : (s.setReading b).boundSlotIndex = s.boundSlotIndex := rfl
@[simp] theorem setReading_wordCursor (b : Bool) : (s.setReading b).wordCursor = s.wordCursor := rfl
@[simp] theorem setReading_targetIsSubCpu (b : Bool) : (s.setReading b).targetIsSubCpu = s.targetIsSubCpu := rfl
@[simp] theorem setReading_deviceDestination (b : Bool) : (s.setReading b).deviceDestination = s.deviceDestination := rfl
@[simp] theorem setReading_dmaAddress (b : Bool) : (s.setReading b).dmaAddress = s.dmaAddress := rfl
@[simp] theorem setReading_source (b : Bool) : (s.setReading b).source = s.source := rfl
@[simp] theorem setReading_commands (b : Bool) : (s.setReading b).commands = s.commands := rfl
@[simp] theorem setReading_response (b : Bool) : (s.setReading b).response = s.response := rfl
@[simp] theorem setReading_diagLog (b : Bool) : (s.setReading b).diagLog = s.diagLog := rfl

/-! ### `setPosition` (R143) -/

@[simp] theorem setPosition_params (a b : SectorWord) : (s.setPosition a b).params = s.params := rfl
@[simp] theorem setPosition_currentSector (a b : SectorWord) : (s.setPosition a b).currentSector = a := rfl
@[simp] theorem setPosition_sectorsRemaining (a b : SectorWord) : (s.setPosition a b).sectorsRemaining = b := rfl
@[simp] theorem setPosition_reading (a b : SectorWord) : (s.setPosition a b).reading = s.reading := rfl
@[simp] theorem setPosition_slots (a b : SectorWord) : (s.setPosition a b).slots = s.slots := rfl
@[simp] theorem setPosition_readIndex (a b : SectorWord) : (s.setPosition a b).readIndex = s.readIndex := rfl
@[simp] theorem setPosition_writeIndex (a b : SectorWord) : (s.setPosition a b).writeIndex = s.writeIndex := rfl
@[simp] theorem setPosition_occupancy (a b : SectorWord) : (s.setPosition a b).occupancy = s.occupancy := rfl
@[simp] theorem setPosition_bound (a b : SectorWord) : (s.setPosition a b).bound = s.bound := rfl
@[simp] theorem setPosition_boundSlotIndex (a b : SectorWord) : (s.setPosition a b).boundSlotIndex = s.boundSlotIndex := rfl
@[simp] theorem setPosition_wordCursor (a b : SectorWord) : (s.setPosition a b).wordCursor = s.wordCursor := rfl
@[simp] theorem setPosition_targetIsSubCpu (a b : SectorWord) : (s.setPosition a b).targetIsSubCpu = s.targetIsSubCpu := rfl
@[simp] theorem setPosition_deviceDestination (a b : SectorWord) : (s.setPosition a b).deviceDestination = s.deviceDestination := rfl
@[simp] theorem setPosition_dmaAddress (a b : SectorWord) : (s.setPosition a b).dmaAddress = s.dmaAddress := rfl
@[simp] theorem setPosition_source (a b : SectorWord) : (s.setPosition a b).source = s.source := rfl
@[simp] theorem setPosition_commands (a b : SectorWord) : (s.setPosition a b).commands = s.commands := rfl
@[simp] theorem setPosition_response (a b : SectorWord) : (s.setPosition a b).response = s.response := rfl
@[simp] theorem setPosition_diagLog (a b : SectorWord) : (s.setPosition a b).diagLog = s.diagLog := rfl

/-! ### `countDown` (R100) -/

@[simp] theorem countDown_params : s.countDown.params = s.params := rfl
@[simp] theorem countDown_currentSector : s.countDown.currentSector = s.currentSector := rfl
@[simp] theorem countDown_sectorsRemaining : s.countDown.sectorsRemaining = s.sectorsRemaining - 1 := rfl
@[simp] theorem countDown_reading : s.countDown.reading = s.reading := rfl
@[simp] theorem countDown_slots : s.countDown.slots = s.slots := rfl
@[simp] theorem countDown_readIndex : s.countDown.readIndex = s.readIndex := rfl
@[simp] theorem countDown_writeIndex : s.countDown.writeIndex = s.writeIndex := rfl
@[simp] theorem countDown_occupancy : s.countDown.occupancy = s.occupancy := rfl
@[simp] theorem countDown_bound : s.countDown.bound = s.bound := rfl
@[simp] theorem countDown_boundSlotIndex : s.countDown.boundSlotIndex = s.boundSlotIndex := rfl
@[simp] theorem countDown_wordCursor : s.countDown.wordCursor = s.wordCursor := rfl
@[simp] theorem countDown_targetIsSubCpu : s.countDown.targetIsSubCpu = s.targetIsSubCpu := rfl
@[simp] theorem countDown_deviceDestination : s.countDown.deviceDestination = s.deviceDestination := rfl
@[simp] theorem countDown_dmaAddress : s.countDown.dmaAddress = s.dmaAddress := rfl
@[simp] theorem countDown_source : s.countDown.source = s.source := rfl
@[simp] theorem countDown_commands : s.countDown.commands = s.commands := rfl
@[simp] theorem countDown_response : s.countDown.response = s.response := rfl
@[simp] theorem countDown_diagLog : s.countDown.diagLog = s.diagLog := rfl

/-! ### `setDestination` (R145) -/

@[simp] theorem setDestination_params (code : Byte) : (s.setDestination code).params = s.params := rfl
@[simp] theorem setDestination_currentSector (code : Byte) : (s.setDestination code).currentSector = s.currentSector := rfl
@[simp] theorem setDestination_sectorsRemaining (code : Byte) : (s.setDestination code).sectorsRemaining = s.sectorsRemaining := rfl
@[simp] theorem setDestination_reading (code : Byte) : (s.setDestination code).reading = s.reading := rfl
@[simp] theorem setDestination_slots (code : Byte) : (s.setDestination code).slots = s.slots := rfl
@[simp] theorem setDestination_readIndex (code : Byte) : (s.setDestination code).readIndex = s.readIndex := rfl
@[simp] theorem setDestination_writeIndex (code : Byte) : (s.setDestination code).writeIndex = s.writeIndex := rfl
@[simp] theorem setDestination_occupancy (code : Byte) : (s.setDestination code).occupancy = s.occupancy := rfl
@[simp] theorem setDestination_bound (code : Byte) : (s.setDestination code).bound = s.bound := rfl
@[simp] theorem setDestination_boundSlotIndex (code : Byte) : (s.setDestination code).boundSlotIndex = s.boundSlotIndex := rfl
@[simp] theorem setDestination_wordCursor (code : Byte) : (s.setDestination code).wordCursor = s.wordCursor := rfl
@[simp] theorem setDestination_targetIsSubCpu (code : Byte) : (s.setDestination code).targetIsSubCpu = s.targetIsSubCpu := rfl
@[simp] theorem setDestination_deviceDestination (code : Byte) : (s.setDestination code).deviceDestination = code := rfl
@[simp] theorem setDestination_dmaAddress (code : Byte) : (s.setDestination code).dmaAddress = s.dmaAddress := rfl
@[simp] theorem setDestination_source (code : Byte) : (s.setDestination code).source = s.source := rfl
@[simp] theorem setDestination_commands (code : Byte) : (s.setDestination code).commands = s.commands := rfl
@[simp] theorem setDestination_response (code : Byte) : (s.setDestination code).response = s.response := rfl
@[simp] theorem setDestination_diagLog (code : Byte) : (s.setDestination code).diagLog = s.diagLog := rfl

/-! ### `setDmaAddress` (R146) -/

@[simp] theorem setDmaAddress_params (addr : Word) : (s.setDmaAddress addr).params = s.params := rfl
@[simp] theorem setDmaAddress_currentSector (addr : Word) : (s.setDmaAddress addr).currentSector = s.currentSector := rfl
@[simp] theorem setDmaAddress_sectorsRemaining (addr : Word) : (s.setDmaAddress addr).sectorsRemaining = s.sectorsRemaining := rfl
@[simp] theorem setDmaAddress_reading (addr : Word) : (s.setDmaAddress addr).reading = s.reading := rfl
@[simp] theorem setDmaAddress_slots (addr : Word) : (s.setDmaAddress addr).slots = s.slots := rfl
@[simp] theorem setDmaAddress_readIndex (addr : Word) : (s.setDmaAddress addr).readIndex = s.readIndex := rfl
@[simp] theorem setDmaAddress_writeIndex (addr : Word) : (s.setDmaAddress addr).writeIndex = s.writeIndex := rfl
@[simp] theorem setDmaAddress_occupancy (addr : Word) : (s.setDmaAddress addr).occupancy = s.occupancy := rfl
@[simp] theorem setDmaAddress_bound (addr : Word) : (s.setDmaAddress addr).bound = s.bound := rfl
@[simp] theorem setDmaAddress_boundSlotIndex (addr : Word) : (s.setDmaAddress addr).boundSlotIndex = s.boundSlotIndex := rfl
@[simp] theorem setDmaAddress_wordCursor (addr : Word) : (s.setDmaAddress addr).wordCursor = s.wordCursor := rfl
@[simp] theorem setDmaAddress_targetIsSubCpu (addr : Word) : (s.setDmaAddress addr).targetIsSubCpu = s.targetIsSubCpu := rfl
@[simp] theorem setDmaAddress_deviceDestination (addr : Word) : (s.setDmaAddress addr).deviceDestination = s.deviceDestination := rfl
@[simp] theorem setDmaAddress_dmaAddress (addr : Word) : (s.setDmaAddress addr).dmaAddress = addr := rfl
@[simp] theorem setDmaAddress_source (addr : Word) : (s.setDmaAddress addr).source = s.source := rfl
@[simp] theorem setDmaAddress_commands (addr : Word) : (s.setDmaAddress addr).commands = s.commands := rfl
@[simp] theorem setDmaAddress_response (addr : Word) : (s.setDmaAddress addr).response = s.response := rfl
@[simp] theorem setDmaAddress_diagLog (addr : Word) : (s.setDmaAddress addr).diagLog = s.diagLog := rfl

/-! ### `bindOldest` (R121) -/

@[simp] theorem bindOldest_params (t : Bool) : (s.bindOldest t).params = s.params := rfl
@[simp] theorem bindOldest_currentSector (t : Bool) : (s.bindOldest t).currentSector = s.currentSector := rfl
@[simp] theorem bindOldest_sectorsRemaining (t : Bool) : (s.bindOldest t).sectorsRemaining = s.sectorsRemaining := rfl
@[simp] theorem bindOldest_reading (t : Bool) : (s.bindOldest t).reading = s.reading := rfl
@[simp] theorem bindOldest_slots (t : Bool) : (s.bindOldest t).slots = s.slots := rfl
@[simp] theorem bindOldest_readIndex (t : Bool) : (s.bindOldest t).readIndex = s.readIndex := rfl
@[simp] theorem bindOldest_writeIndex (t : Bool) : (s.bindOldest t).writeIndex = s.writeIndex := rfl
@[simp] theorem bindOldest_occupancy (t : Bool) : (s.bindOldest t).occupancy = s.occupancy := rfl
@[simp] theorem bindOldest_bound (t : Bool) : (s.bindOldest t).bound = true := rfl
@[simp] theorem bindOldest_boundSlotIndex (t : Bool) : (s.bindOldest t).boundSlotIndex = s.readIndex := rfl
@[simp] theorem bindOldest_wordCursor (t : Bool) : (s.bindOldest t).wordCursor = 0 := rfl
@[simp] theorem bindOldest_targetIsSubCpu (t : Bool) : (s.bindOldest t).targetIsSubCpu = t := rfl
@[simp] theorem bindOldest_deviceDestination (t : Bool) : (s.bindOldest t).deviceDestination = s.deviceDestination := rfl
@[simp] theorem bindOldest_dmaAddress (t : Bool) : (s.bindOldest t).dmaAddress = s.dmaAddress := rfl
@[simp] theorem bindOldest_source (t : Bool) : (s.bindOldest t).source = s.source := rfl
@[simp] theorem bindOldest_commands (t : Bool) : (s.bindOldest t).commands = s.commands := rfl
@[simp] theorem bindOldest_response (t : Bool) : (s.bindOldest t).response = s.response := rfl
@[simp] theorem bindOldest_diagLog (t : Bool) : (s.bindOldest t).diagLog = s.diagLog := rfl

/-! ### `advanceCursor` (R125) -/

@[simp] theorem advanceCursor_params : s.advanceCursor.params = s.params := rfl
@[simp] theorem advanceCursor_currentSector : s.advanceCursor.currentSector = s.currentSector := rfl
@[simp] theorem advanceCursor_sectorsRemaining : s.advanceCursor.sectorsRemaining = s.sectorsRemaining := rfl
@[simp] theorem advanceCursor_reading : s.advanceCursor.reading = s.reading := rfl
@[simp] theorem advanceCursor_slots : s.advanceCursor.slots = s.slots := rfl
@[simp] theorem advanceCursor_readIndex : s.advanceCursor.readIndex = s.readIndex := rfl
@[simp] theorem advanceCursor_writeIndex : s.advanceCursor.writeIndex = s.writeIndex := rfl
@[simp] theorem advanceCursor_occupancy : s.advanceCursor.occupancy = s.occupancy := rfl
@[simp] theorem advanceCursor_bound : s.advanceCursor.bound = s.bound := rfl
@[simp] theorem advanceCursor_boundSlotIndex : s.advanceCursor.boundSlotIndex = s.boundSlotIndex := rfl
@[simp] theorem advanceCursor_wordCursor : s.advanceCursor.wordCursor = s.wordCursor + 1 := rfl
@[simp] theorem advanceCursor_targetIsSubCpu : s.advanceCursor.targetIsSubCpu = s.targetIsSubCpu := rfl
@[simp] theorem advanceCursor_deviceDestination : s.advanceCursor.deviceDestination = s.deviceDestination := rfl
@[simp] theorem advanceCursor_dmaAddress : s.advanceCursor.dmaAddress = s.dmaAddress := rfl
@[simp] theorem advanceCursor_source : s.advanceCursor.source = s.source := rfl
@[simp] theorem advanceCursor_commands : s.advanceCursor.commands = s.commands := rfl
@[simp] theorem advanceCursor_response : s.advanceCursor.response = s.response := rfl
@[simp] theorem advanceCursor_diagLog : s.advanceCursor.diagLog = s.diagLog := rfl

/-! ### `unbind` (R128) -/

@[simp] theorem unbind_params : s.unbind.params = s.params := rfl
@[simp] theorem unbind_currentSector : s.unbind.currentSector = s.currentSector := rfl
@[simp] theorem unbind_sectorsRemaining : s.unbind.sectorsRemaining = s.sectorsRemaining := rfl
@[simp] theorem unbind_reading : s.unbind.reading = s.reading := rfl
@[simp] theorem unbind_slots : s.unbind.slots = s.slots := rfl
@[simp] theorem unbind_readIndex : s.unbind.readIndex = s.readIndex := rfl
@[simp] theorem unbind_writeIndex : s.unbind.writeIndex = s.writeIndex := rfl
@[simp] theorem unbind_occupancy : s.unbind.occupancy = s.occupancy := rfl
@[simp] theorem unbind_bound : s.unbind.bound = false := rfl
@[simp] theorem unbind_boundSlotIndex : s.unbind.boundSlotIndex = s.boundSlotIndex := rfl
@[simp] theorem unbind_wordCursor : s.unbind.wordCursor = s.wordCursor := rfl
@[simp] theorem unbind_targetIsSubCpu : s.unbind.targetIsSubCpu = s.targetIsSubCpu := rfl
@[simp] theorem unbind_deviceDestination : s.unbind.deviceDestination = s.deviceDestination := rfl
@[simp] theorem unbind_dmaAddress : s.unbind.dmaAddress = s.dmaAddress := rfl
@[simp] theorem unbind_source : s.unbind.source = s.source := rfl
@[simp] theorem unbind_commands : s.unbind.commands = s.commands := rfl
@[simp] theorem unbind_response : s.unbind.response = s.response := rfl
@[simp] theorem unbind_diagLog : s.unbind.diagLog = s.diagLog := rfl

/-! ### `releaseOldest` (R105) -/

@[simp] theorem releaseOldest_params : s.releaseOldest.params = s.params := rfl
@[simp] theorem releaseOldest_currentSector : s.releaseOldest.currentSector = s.currentSector := rfl
@[simp] theorem releaseOldest_sectorsRemaining : s.releaseOldest.sectorsRemaining = s.sectorsRemaining := rfl
@[simp] theorem releaseOldest_reading : s.releaseOldest.reading = s.reading := rfl
@[simp] theorem releaseOldest_slots : s.releaseOldest.slots = s.slots := rfl
@[simp] theorem releaseOldest_readIndex : s.releaseOldest.readIndex = (s.readIndex + 1) % s.params.capacity := rfl
@[simp] theorem releaseOldest_writeIndex : s.releaseOldest.writeIndex = s.writeIndex := rfl
@[simp] theorem releaseOldest_occupancy : s.releaseOldest.occupancy = s.occupancy - 1 := rfl
@[simp] theorem releaseOldest_bound : s.releaseOldest.bound = s.bound := rfl
@[simp] theorem releaseOldest_boundSlotIndex : s.releaseOldest.boundSlotIndex = s.boundSlotIndex := rfl
@[simp] theorem releaseOldest_wordCursor : s.releaseOldest.wordCursor = s.wordCursor := rfl
@[simp] theorem releaseOldest_targetIsSubCpu : s.releaseOldest.targetIsSubCpu = s.targetIsSubCpu := rfl
@[simp] theorem releaseOldest_deviceDestination : s.releaseOldest.deviceDestination = s.deviceDestination := rfl
@[simp] theorem releaseOldest_dmaAddress : s.releaseOldest.dmaAddress = s.dmaAddress := rfl
@[simp] theorem releaseOldest_source : s.releaseOldest.source = s.source := rfl
@[simp] theorem releaseOldest_commands : s.releaseOldest.commands = s.commands := rfl
@[simp] theorem releaseOldest_response : s.releaseOldest.response = s.response := rfl
@[simp] theorem releaseOldest_diagLog : s.releaseOldest.diagLog = s.diagLog := rfl

/-! ### `pushSector` (R100, R101) -/

@[simp] theorem pushSector_params (ws : List Word) : (s.pushSector ws).params = s.params := rfl
@[simp] theorem pushSector_currentSector (ws : List Word) : (s.pushSector ws).currentSector = s.currentSector + 1 := rfl
@[simp] theorem pushSector_sectorsRemaining (ws : List Word) : (s.pushSector ws).sectorsRemaining = s.sectorsRemaining := rfl
@[simp] theorem pushSector_reading (ws : List Word) : (s.pushSector ws).reading = s.reading := rfl
@[simp] theorem pushSector_slots (ws : List Word) : (s.pushSector ws).slots = s.slots.writeBlock (wordAddress s.params s.writeIndex 0) ws := rfl
@[simp] theorem pushSector_readIndex (ws : List Word) : (s.pushSector ws).readIndex = s.readIndex := rfl
@[simp] theorem pushSector_writeIndex (ws : List Word) : (s.pushSector ws).writeIndex = (s.writeIndex + 1) % s.params.capacity := rfl
@[simp] theorem pushSector_occupancy (ws : List Word) : (s.pushSector ws).occupancy = s.occupancy + 1 := rfl
@[simp] theorem pushSector_bound (ws : List Word) : (s.pushSector ws).bound = s.bound := rfl
@[simp] theorem pushSector_boundSlotIndex (ws : List Word) : (s.pushSector ws).boundSlotIndex = s.boundSlotIndex := rfl
@[simp] theorem pushSector_wordCursor (ws : List Word) : (s.pushSector ws).wordCursor = s.wordCursor := rfl
@[simp] theorem pushSector_targetIsSubCpu (ws : List Word) : (s.pushSector ws).targetIsSubCpu = s.targetIsSubCpu := rfl
@[simp] theorem pushSector_deviceDestination (ws : List Word) : (s.pushSector ws).deviceDestination = s.deviceDestination := rfl
@[simp] theorem pushSector_dmaAddress (ws : List Word) : (s.pushSector ws).dmaAddress = s.dmaAddress := rfl
@[simp] theorem pushSector_source (ws : List Word) : (s.pushSector ws).source = ⟨s.source.script, s.source.calls + 1⟩ := rfl
@[simp] theorem pushSector_commands (ws : List Word) : (s.pushSector ws).commands = s.commands := rfl
@[simp] theorem pushSector_response (ws : List Word) : (s.pushSector ws).response = s.response := rfl
@[simp] theorem pushSector_diagLog (ws : List Word) : (s.pushSector ws).diagLog = s.diagLog := rfl

/-! ### `emitDiag` (R177) -/

@[simp] theorem emitDiag_params (c : Byte) : (s.emitDiag c).params = s.params := rfl
@[simp] theorem emitDiag_currentSector (c : Byte) : (s.emitDiag c).currentSector = s.currentSector := rfl
@[simp] theorem emitDiag_sectorsRemaining (c : Byte) : (s.emitDiag c).sectorsRemaining = s.sectorsRemaining := rfl
@[simp] theorem emitDiag_reading (c : Byte) : (s.emitDiag c).reading = s.reading := rfl
@[simp] theorem emitDiag_slots (c : Byte) : (s.emitDiag c).slots = s.slots := rfl
@[simp] theorem emitDiag_readIndex (c : Byte) : (s.emitDiag c).readIndex = s.readIndex := rfl
@[simp] theorem emitDiag_writeIndex (c : Byte) : (s.emitDiag c).writeIndex = s.writeIndex := rfl
@[simp] theorem emitDiag_occupancy (c : Byte) : (s.emitDiag c).occupancy = s.occupancy := rfl
@[simp] theorem emitDiag_bound (c : Byte) : (s.emitDiag c).bound = s.bound := rfl
@[simp] theorem emitDiag_boundSlotIndex (c : Byte) : (s.emitDiag c).boundSlotIndex = s.boundSlotIndex := rfl
@[simp] theorem emitDiag_wordCursor (c : Byte) : (s.emitDiag c).wordCursor = s.wordCursor := rfl
@[simp] theorem emitDiag_targetIsSubCpu (c : Byte) : (s.emitDiag c).targetIsSubCpu = s.targetIsSubCpu := rfl
@[simp] theorem emitDiag_deviceDestination (c : Byte) : (s.emitDiag c).deviceDestination = s.deviceDestination := rfl
@[simp] theorem emitDiag_dmaAddress (c : Byte) : (s.emitDiag c).dmaAddress = s.dmaAddress := rfl
@[simp] theorem emitDiag_source (c : Byte) : (s.emitDiag c).source = s.source := rfl
@[simp] theorem emitDiag_commands (c : Byte) : (s.emitDiag c).commands = s.commands := rfl
@[simp] theorem emitDiag_response (c : Byte) : (s.emitDiag c).response = s.response := rfl
@[simp] theorem emitDiag_diagLog (c : Byte) : (s.emitDiag c).diagLog = s.diagLog ++ [c] := rfl

/-! ### `resetRecord` (R140) -/

@[simp] theorem resetRecord_params : s.resetRecord.params = s.params := rfl
@[simp] theorem resetRecord_currentSector : s.resetRecord.currentSector = 0 := rfl
@[simp] theorem resetRecord_sectorsRemaining : s.resetRecord.sectorsRemaining = 0 := rfl
@[simp] theorem resetRecord_reading : s.resetRecord.reading = false := rfl
@[simp] theorem resetRecord_slots : s.resetRecord.slots = s.slots := rfl
@[simp] theorem resetRecord_readIndex : s.resetRecord.readIndex = 0 := rfl
@[simp] theorem resetRecord_writeIndex : s.resetRecord.writeIndex = 0 := rfl
@[simp] theorem resetRecord_occupancy : s.resetRecord.occupancy = 0 := rfl
@[simp] theorem resetRecord_bound : s.resetRecord.bound = false := rfl
@[simp] theorem resetRecord_boundSlotIndex : s.resetRecord.boundSlotIndex = 0 := rfl
@[simp] theorem resetRecord_wordCursor : s.resetRecord.wordCursor = s.params.wordsPerSector := rfl
@[simp] theorem resetRecord_targetIsSubCpu : s.resetRecord.targetIsSubCpu = true := rfl
@[simp] theorem resetRecord_deviceDestination : s.resetRecord.deviceDestination = 3 := rfl
@[simp] theorem resetRecord_dmaAddress : s.resetRecord.dmaAddress = 0 := rfl
@[simp] theorem resetRecord_source : s.resetRecord.source = s.source := rfl
@[simp] theorem resetRecord_commands : s.resetRecord.commands = s.commands := rfl
@[simp] theorem resetRecord_response : s.resetRecord.response = s.response := rfl
@[simp] theorem resetRecord_diagLog : s.resetRecord.diagLog = s.diagLog := rfl

/-! ### `setCommands` (R9) -/

@[simp] theorem setCommands_params (ws : List CommandWord) : (s.setCommands ws).params = s.params := rfl
@[simp] theorem setCommands_currentSector (ws : List CommandWord) : (s.setCommands ws).currentSector = s.currentSector := rfl
@[simp] theorem setCommands_sectorsRemaining (ws : List CommandWord) : (s.setCommands ws).sectorsRemaining = s.sectorsRemaining := rfl
@[simp] theorem setCommands_reading (ws : List CommandWord) : (s.setCommands ws).reading = s.reading := rfl
@[simp] theorem setCommands_slots (ws : List CommandWord) : (s.setCommands ws).slots = s.slots := rfl
@[simp] theorem setCommands_readIndex (ws : List CommandWord) : (s.setCommands ws).readIndex = s.readIndex := rfl
@[simp] theorem setCommands_writeIndex (ws : List CommandWord) : (s.setCommands ws).writeIndex = s.writeIndex := rfl
@[simp] theorem setCommands_occupancy (ws : List CommandWord) : (s.setCommands ws).occupancy = s.occupancy := rfl
@[simp] theorem setCommands_bound (ws : List CommandWord) : (s.setCommands ws).bound = s.bound := rfl
@[simp] theorem setCommands_boundSlotIndex (ws : List CommandWord) : (s.setCommands ws).boundSlotIndex = s.boundSlotIndex := rfl
@[simp] theorem setCommands_wordCursor (ws : List CommandWord) : (s.setCommands ws).wordCursor = s.wordCursor := rfl
@[simp] theorem setCommands_targetIsSubCpu (ws : List CommandWord) : (s.setCommands ws).targetIsSubCpu = s.targetIsSubCpu := rfl
@[simp] theorem setCommands_deviceDestination (ws : List CommandWord) : (s.setCommands ws).deviceDestination = s.deviceDestination := rfl
@[simp] theorem setCommands_dmaAddress (ws : List CommandWord) : (s.setCommands ws).dmaAddress = s.dmaAddress := rfl
@[simp] theorem setCommands_source (ws : List CommandWord) : (s.setCommands ws).source = s.source := rfl
@[simp] theorem setCommands_commands (ws : List CommandWord) : (s.setCommands ws).commands = ws := rfl
@[simp] theorem setCommands_response (ws : List CommandWord) : (s.setCommands ws).response = s.response := rfl
@[simp] theorem setCommands_diagLog (ws : List CommandWord) : (s.setCommands ws).diagLog = s.diagLog := rfl

end Sys2Proof.Machine.State
end

