-- ==== Sys2Proof/Laws/Memory.lean ====
section
/-! SUPPORT. The laws of the slot store: a read after a block write, and that every write keeps the canonical form. -/

namespace Sys2Proof.Machine

namespace Memory

@[simp] theorem read_nil (a : Nat) : read [] a = none := rfl

@[simp] theorem read_cons (a b : Nat) (v : Word) (m : Memory) : read ((a, v) :: m) b = if a = b then some v else read m b := rfl

@[simp] theorem block_nil (base : Nat) : block base [] = [] := rfl

@[simp] theorem block_cons (base : Nat) (v : Word) (vs : List Word) :
    block base (v :: vs) = (base, v) :: block (base + 1) vs := rfl

theorem read_append (m n : Memory) (a : Nat) : read (m ++ n) a = (read m a).or (read n a) := by
  induction m with
  | nil => simp
  | cons c m ih => by_cases h : c.1 = a <;> simp [read, h, ih]

theorem read_filter (p : Nat → Bool) (m : Memory) (a : Nat) :
    read (m.filter fun c => p c.1) a = if p a then read m a else none := by
  induction m with
  | nil => simp
  | cons c m ih =>
    by_cases hp : p c.1 <;> by_cases h : c.1 = a <;> simp_all [read]

theorem read_block (base : Nat) (vs : List Word) (a : Nat) :
    read (block base vs) a = if a < base then none else vs[a - base]? := by
  induction vs generalizing base with
  | nil => simp
  | cons v vs ih =>
    rw [block_cons, read_cons, ih]
    rcases Nat.lt_trichotomy a base with h | h | h
    · simp [h, Nat.ne_of_gt h, Nat.lt_succ_of_lt h]
    · simp [h]
    · obtain ⟨d, rfl⟩ := Nat.exists_eq_add_of_lt h
      have e : base + d + 1 - base = d + 1 := by omega
      have e' : base + d + 1 - (base + 1) = d := by omega
      simp [e, e', show ¬ base + d + 1 < base + 1 by omega, show ¬ base + d + 1 < base by omega, show base ≠ base + d + 1 by omega]

/-- A read after a block write: inside the block, the word written; outside, what was there. -/
theorem read_writeBlock (m : Memory) (base : Nat) (vs : List Word) (a : Nat) :
    read (m.writeBlock base vs) a =
      if base ≤ a ∧ a < base + vs.length then vs[a - base]? else read m a := by
  have h1 := read_filter (fun x => decide (x < base)) m a
  have h2 := read_filter (fun x => decide (base + vs.length ≤ x)) m a
  simp only [decide_eq_true_eq] at h1 h2
  rw [writeBlock, read_append, read_append, h1, h2, read_block]
  by_cases hlo : a < base
  · cases h : read m a <;> simp [hlo, show ¬ base ≤ a by omega, show ¬ base + vs.length ≤ a by omega]
  · by_cases hhi : a < base + vs.length
    · have : a - base < vs.length := by omega
      simp [hlo, show base ≤ a by omega, hhi, show ¬ base + vs.length ≤ a by omega, this]
    · have : vs.length ≤ a - base := by omega
      simp [hlo, show base ≤ a by omega, hhi, show base + vs.length ≤ a by omega, this]

theorem mem_block {base : Nat} {vs : List Word} {c : Nat × Word} (h : c ∈ block base vs) :
    base ≤ c.1 ∧ c.1 < base + vs.length := by
  induction vs generalizing base with
  | nil => simp at h
  | cons v vs ih =>
    rcases List.mem_cons.1 h with rfl | h
    · simp
    · have := ih h
      simp only [List.length_cons]
      omega

theorem wf_cons (a : Nat) (v : Word) (m : Memory) :
    wf ((a, v) :: m) = true ↔ (∀ c ∈ m, a < c.1) ∧ wf m = true := by
  simp [wf]

theorem wf_append {m n : Memory} (hm : wf m = true) (hn : wf n = true) (h : ∀ c ∈ m, ∀ d ∈ n, c.1 < d.1) : wf (m ++ n) = true := by
  induction m with
  | nil => simpa using hn
  | cons c m ih =>
    rw [wf_cons] at hm
    rw [List.cons_append, wf_cons]
    refine ⟨fun d hd => ?_, ih hm.2 fun c hc d hd => h c (List.mem_cons_of_mem _ hc) d hd⟩
    rcases List.mem_append.1 hd with hd | hd
    · exact hm.1 d hd
    · exact h c List.mem_cons_self d hd

theorem wf_filter {m : Memory} (p : Nat × Word → Bool) (hm : wf m = true) : wf (m.filter p) = true := by
  induction m with
  | nil => simpa using hm
  | cons c m ih =>
    rw [wf_cons] at hm
    by_cases hp : p c
    · rw [List.filter_cons_of_pos hp, wf_cons]
      exact ⟨fun d hd => hm.1 d (List.mem_of_mem_filter hd), ih hm.2⟩
    · rw [List.filter_cons_of_neg hp]
      exact ih hm.2

theorem wf_block (base : Nat) (vs : List Word) : wf (block base vs) = true := by
  induction vs generalizing base with
  | nil => rfl
  | cons v vs ih =>
    rw [block_cons, wf_cons]
    exact ⟨fun c hc => (mem_block hc).1, ih _⟩

/-- Every write keeps the canonical form; `writeBlock` is the only write of the slot store. -/
theorem wf_writeBlock {m : Memory} (base : Nat) (vs : List Word) (hm : wf m = true) : wf (m.writeBlock base vs) = true := by
  refine wf_append (wf_filter _ hm) (wf_append (wf_block base vs) (wf_filter _ hm) ?_) ?_
  · intro c hc d hd
    have := mem_block hc
    have := (List.mem_filter.1 hd).2
    simp only [decide_eq_true_eq] at this
    omega
  · intro c hc d hd
    have hc := (List.mem_filter.1 hc).2
    simp only [decide_eq_true_eq] at hc
    rcases List.mem_append.1 hd with hd | hd
    · have := mem_block hd
      omega
    · have := (List.mem_filter.1 hd).2
      simp only [decide_eq_true_eq] at this
      omega

/-- What a block write lists, it wrote or had listed before. -/
theorem mem_writeBlock {m : Memory} {base : Nat} {vs : List Word} {c : Nat × Word} (h : c ∈ m.writeBlock base vs) :
    c ∈ m ∨ (base ≤ c.1 ∧ c.1 < base + vs.length) := by
  rw [writeBlock, List.mem_append, List.mem_append] at h
  rcases h with h | h | h
  · exact .inl (List.mem_of_mem_filter h)
  · exact .inr (mem_block h)
  · exact .inl (List.mem_of_mem_filter h)

end Memory

/-- Two words of the store have the same linear address only if they are the same word (R51). -/
theorem wordAddress_inj {p : Params} {s t v w : Nat} (hv : v < p.wordsPerSector) (hw : w < p.wordsPerSector)
    (h : wordAddress p s v = wordAddress p t w) : s = t ∧ v = w := by
  unfold wordAddress at h
  have hpos : 0 < p.wordsPerSector := by omega
  have hs : (s * p.wordsPerSector + v) / p.wordsPerSector = s := by
    rw [Nat.mul_comm, Nat.mul_add_div hpos, Nat.div_eq_of_lt hv, Nat.add_zero]
  have ht : (t * p.wordsPerSector + w) / p.wordsPerSector = t := by
    rw [Nat.mul_comm, Nat.mul_add_div hpos, Nat.div_eq_of_lt hw, Nat.add_zero]
  have hst : s = t := by rw [← hs, ← ht, h]
  subst hst
  exact ⟨rfl, by omega⟩

/-- The address of a word of the store lies in the store (R50). -/
theorem wordAddress_lt {p : Params} {s w : Nat} (hs : s < p.capacity) (hw : w < p.wordsPerSector) :
    wordAddress p s w < p.capacity * p.wordsPerSector := by
  have : (s + 1) * p.wordsPerSector ≤ p.capacity * p.wordsPerSector := Nat.mul_le_mul_right _ hs
  rw [Nat.add_mul] at this
  unfold wordAddress
  omega

end Sys2Proof.Machine
end

