-- ==== Sys2Proof/Laws/Ring.lean ====
section
/-! SUPPORT. The spec lemma of the refill pass: `refillPass` leaves exactly what R101 and R102 say (`AfterRefill`), and the lemmas of its parts. -/

namespace Sys2Proof.Machine

/-! ### The words of a sector -/

@[simp] theorem payload_length (s : State) : (nextSectorBytes s).length = s.params.sectorBytes := by
  simp [nextSectorBytes]

theorem packPayload_length (bs : List Byte) : (packPayload bs).length = bs.length / 2 := by
  induction bs using packPayload.induct with
  | case1 hi lo rest ih => simp [packPayload, ih]; omega
  | case2 bs h =>
    match bs, h with
    | [], _ => rfl
    | [_], _ => simp [packPayload]
    | hi :: lo :: rest, h => exact absurd rfl (h hi lo rest)

theorem packPayload_get (bs : List Byte) (k : Nat) (h : 2 * k + 1 < bs.length) :
    (packPayload bs)[k]? = some (bigEndian (bs[2 * k]'(by omega)) bs[2 * k + 1]) := by
  induction bs using packPayload.induct generalizing k with
  | case1 hi lo rest ih =>
    cases k with
    | zero => rfl
    | succ k =>
      have hk : 2 * k + 1 < rest.length := by simp only [List.length_cons] at h; omega
      simpa [packPayload, Nat.mul_succ] using ih k hk
  | case2 bs hne =>
    match bs, hne with
    | [], _ => simp at h
    | [_], _ => simp at h
    | hi :: lo :: rest, hne => exact absurd rfl (hne hi lo rest)

theorem sectorWords_length (s : State) :
    (sectorWords s.params.modeByte s.currentSector (nextSectorBytes s)).length = s.params.wordsPerSector := by
  simp [sectorWords, packPayload_length, Params.wordsPerSector, Params.payloadWords, headerWords]
  omega

/-- Every word of the stored sector, by its offset (R52). -/
theorem sectorWords_get (s : State) {w : Nat} (hw : w < s.params.wordsPerSector) :
    (sectorWords s.params.modeByte s.currentSector (nextSectorBytes s))[w]? = some (refillWord s 0 w) := by
  match w, hw with
  | 0, _ => simp [sectorWords, refillWord]
  | 1, _ => simp [sectorWords, refillWord]
  | k + 2, hw =>
    have hk : 2 * k + 1 < (nextSectorBytes s).length := by
      simp only [Params.wordsPerSector, Params.payloadWords, headerWords] at hw
      simp only [payload_length]
      omega
    have := packPayload_get _ k hk
    simp only [nextSectorBytes, List.getElem_map, List.getElem_range] at this
    simpa [sectorWords, refillWord, nextSectorBytes] using this

/-! ### One iteration -/

section step
variable (s : State)

theorem countSector_cases : (s.sectorsRemaining = 0 ∧ countSector s = s) ∨
    (s.sectorsRemaining = 1 ∧ countSector s = s.countDown.setReading false) ∨
    (s.sectorsRemaining ≠ 0 ∧ s.sectorsRemaining ≠ 1 ∧ countSector s = s.countDown) := by
  unfold countSector
  by_cases h0 : s.sectorsRemaining = 0
  · simp [h0]
  · by_cases h1 : s.sectorsRemaining = 1
    · simp [h1]
    · have : ¬ s.countDown.sectorsRemaining = 0 := fun h => h1 (by rw [State.countDown_sectorsRemaining] at h; exact sub_eq_zero.1 h)
      exact .inr (.inr ⟨h0, h1, by rw [if_neg h0, if_neg this]⟩)

/-- The counter part of an iteration writes only the counter and `reading`. -/
theorem countSector_frame : ∃ rem rd, countSector s = { s with sectorsRemaining := rem, reading := rd } := by
  rcases countSector_cases s with ⟨-, h⟩ | ⟨-, h⟩ | ⟨-, -, h⟩ <;> rw [h]
  · exact ⟨_, _, rfl⟩
  · exact ⟨_, _, rfl⟩
  · exact ⟨_, _, rfl⟩

/-- One iteration stores one sector, and apart from that writes only the counter and `reading`. -/
theorem refillStep_frame : ∃ rem rd, refillStep s = { storeNext s with sectorsRemaining := rem, reading := rd } :=
  countSector_frame (storeNext s)

@[simp] theorem refillStep_params : (refillStep s).params = s.params := by
  obtain ⟨_, _, h⟩ := refillStep_frame s; rw [h]; rfl
@[simp] theorem refillStep_currentSector : (refillStep s).currentSector = s.currentSector + 1 := by
  obtain ⟨_, _, h⟩ := refillStep_frame s; rw [h]; rfl
@[simp] theorem refillStep_slots : (refillStep s).slots = s.slots.writeBlock (wordAddress s.params s.writeIndex 0)
    (sectorWords s.params.modeByte s.currentSector (nextSectorBytes s)) := by
  obtain ⟨_, _, h⟩ := refillStep_frame s; rw [h]; rfl
@[simp] theorem refillStep_readIndex : (refillStep s).readIndex = s.readIndex := by
  obtain ⟨_, _, h⟩ := refillStep_frame s; rw [h]; rfl
@[simp] theorem refillStep_writeIndex : (refillStep s).writeIndex = (s.writeIndex + 1) % s.params.capacity := by
  obtain ⟨_, _, h⟩ := refillStep_frame s; rw [h]; rfl
@[simp] theorem refillStep_occupancy : (refillStep s).occupancy = s.occupancy + 1 := by
  obtain ⟨_, _, h⟩ := refillStep_frame s; rw [h]; rfl
@[simp] theorem refillStep_bound : (refillStep s).bound = s.bound := by
  obtain ⟨_, _, h⟩ := refillStep_frame s; rw [h]; rfl
@[simp] theorem refillStep_boundSlotIndex : (refillStep s).boundSlotIndex = s.boundSlotIndex := by
  obtain ⟨_, _, h⟩ := refillStep_frame s; rw [h]; rfl
@[simp] theorem refillStep_wordCursor : (refillStep s).wordCursor = s.wordCursor := by
  obtain ⟨_, _, h⟩ := refillStep_frame s; rw [h]; rfl
@[simp] theorem refillStep_targetIsSubCpu : (refillStep s).targetIsSubCpu = s.targetIsSubCpu := by
  obtain ⟨_, _, h⟩ := refillStep_frame s; rw [h]; rfl
@[simp] theorem refillStep_deviceDestination : (refillStep s).deviceDestination = s.deviceDestination := by
  obtain ⟨_, _, h⟩ := refillStep_frame s; rw [h]; rfl
@[simp] theorem refillStep_dmaAddress : (refillStep s).dmaAddress = s.dmaAddress := by
  obtain ⟨_, _, h⟩ := refillStep_frame s; rw [h]; rfl
@[simp] theorem refillStep_source : (refillStep s).source = ⟨s.source.script, s.source.calls + 1⟩ := by
  obtain ⟨_, _, h⟩ := refillStep_frame s; rw [h]; rfl
@[simp] theorem refillStep_commands : (refillStep s).commands = s.commands := by
  obtain ⟨_, _, h⟩ := refillStep_frame s; rw [h]; rfl
@[simp] theorem refillStep_response : (refillStep s).response = s.response := by
  obtain ⟨_, _, h⟩ := refillStep_frame s; rw [h]; rfl
@[simp] theorem refillStep_diagLog : (refillStep s).diagLog = s.diagLog := by
  obtain ⟨_, _, h⟩ := refillStep_frame s; rw [h]; rfl

/-- R103: the counter is never decremented at 0. -/
theorem refillStep_sectorsRemaining : (refillStep s).sectorsRemaining.toNat = s.sectorsRemaining.toNat - 1 := by
  rcases countSector_cases (storeNext s) with ⟨h, e⟩ | ⟨h, e⟩ | ⟨h, h', e⟩ <;>
    rw [refillStep, e] <;> simp only [storeNext, State.pushSector_sectorsRemaining] at h
  · simp [storeNext, h]
  · simp [storeNext, h]
  · have : 0 < s.sectorsRemaining.toNat := by
      rcases Nat.eq_zero_or_pos s.sectorsRemaining.toNat with h0 | h0
      · exact absurd (BitVec.eq_of_toNat_eq (by simpa using h0)) h
      · exact h0
    simp [storeNext, BitVec.toNat_sub]
    omega

/-- R103: reaching exactly 0 from nonzero clears `reading`. -/
theorem refillStep_reading : (refillStep s).reading = (s.reading && !decide (s.sectorsRemaining.toNat = 1)) := by
  have key : s.sectorsRemaining = 1 ↔ s.sectorsRemaining.toNat = 1 := by
    rw [← BitVec.toNat_inj]; simp
  rcases countSector_cases (storeNext s) with ⟨h, e⟩ | ⟨h, e⟩ | ⟨h, h', e⟩ <;>
    rw [refillStep, e] <;> simp only [storeNext, State.pushSector_sectorsRemaining] at h
  · simp [storeNext, h]
  · simp [storeNext, h]
  · have : ¬ s.sectorsRemaining.toNat = 1 := fun x => h' (by simpa [storeNext] using key.2 x)
    simp [storeNext, this]

end step

/-! ### The count of a pass (R102) -/

theorem sectorsRemaining_eq_zero (s : State) : s.sectorsRemaining = 0 ↔ s.sectorsRemaining.toNat = 0 := by
  rw [← BitVec.toNat_inj]; simp

/-- R102's `m` with its first case folded into the others. -/
theorem refillCount_eq (s : State) : refillCount s =
    if s.reading = true then
      if s.sectorsRemaining.toNat = 0 then s.params.capacity - s.occupancy
      else min (s.params.capacity - s.occupancy) s.sectorsRemaining.toNat
    else 0 := by
  simp only [refillCount, sectorsRemaining_eq_zero]
  cases s.reading with
  | false => simp
  | true =>
    by_cases hc : s.occupancy = s.params.capacity
    · simp [hc]
    · simp [hc]

theorem refillCount_zero {s : State} (hocc : s.occupancy ≤ s.params.capacity) (h : canRefill s = false) : refillCount s = 0 := by
  simp only [canRefill, Bool.and_eq_false_iff, decide_eq_false_iff_not] at h
  rcases h with h | h
  · simp [refillCount, h]
  · simp [refillCount, show s.occupancy = s.params.capacity by omega]

theorem refillCount_step {s : State} (h : canRefill s = true) : refillCount s = refillCount (refillStep s) + 1 := by
  simp only [canRefill, Bool.and_eq_true, decide_eq_true_eq] at h
  obtain ⟨hr, hc⟩ := h
  simp only [refillCount_eq, refillStep_reading, refillStep_sectorsRemaining, refillStep_occupancy, refillStep_params, hr]
  by_cases h1 : s.sectorsRemaining.toNat = 1
  · simp [h1]; omega
  · by_cases h0 : s.sectorsRemaining.toNat = 0
    · simp [h0]; omega
    · have : ¬ s.sectorsRemaining.toNat - 1 = 0 := by omega
      simp [h0, h1, this]; omega

theorem refillCount_le (s : State) : refillCount s ≤ s.params.capacity - s.occupancy := by
  unfold refillCount
  split
  · omega
  · split <;> omega

/-! ### The pass -/

theorem canRefill_of_count_pos {s : State} (hocc : s.occupancy ≤ s.params.capacity) (h : 0 < refillCount s) : canRefill s = true := by
  cases hc : canRefill s with
  | true => rfl
  | false => rw [refillCount_zero hocc hc] at h; omega

theorem refillWord_step (s : State) (j w : Nat) : refillWord (refillStep s) j w = refillWord s (j + 1) w := by
  have e : s.currentSector + 1 + BitVec.ofNat 32 j = s.currentSector + BitVec.ofNat 32 (j + 1) := by
    apply BitVec.eq_of_toNat_eq
    simp [BitVec.toNat_add]
    omega
  have c : s.source.calls + 1 + j = s.source.calls + (j + 1) := by omega
  simp only [refillWord, refillStep_params, refillStep_currentSector, refillStep_source, e, c]
  rfl

/-- A pass that cannot start leaves everything (R110). -/
theorem afterRefill_refl {s : State} (hocc : s.occupancy ≤ s.params.capacity) (hwi : s.writeIndex < s.params.capacity)
    (h : canRefill s = false) : AfterRefill s s := by
  have hm := refillCount_zero hocc h
  constructor <;> simp [hm, Nat.mod_eq_of_lt hwi]
  intro _
  omega

theorem mod_succ_ne {wi j cap : Nat} (hwi : wi < cap) (hj : j + 1 < cap) : ((wi + 1) % cap + j) % cap ≠ wi := by
  rw [Nat.mod_add_mod]
  intro h
  by_cases hlt : wi + 1 + j < cap
  · rw [Nat.mod_eq_of_lt hlt] at h; omega
  · have : (wi + 1 + j) % cap = wi + 1 + j - cap := by
      rw [Nat.mod_eq_sub_mod (by omega), Nat.mod_eq_of_lt (by omega)]
    omega

/-- The word at an address after one iteration: inside the slot at `write_index` the sector's word, elsewhere what was there. -/
theorem refillStep_read_stored (s : State) {w : Nat} (hw : w < s.params.wordsPerSector) :
    (refillStep s).slots.read (wordAddress s.params s.writeIndex w) = some (refillWord s 0 w) := by
  rw [refillStep_slots, Memory.read_writeBlock, sectorWords_length]
  have e : wordAddress s.params s.writeIndex w - wordAddress s.params s.writeIndex 0 = w := by unfold wordAddress; omega
  rw [if_pos (by unfold wordAddress; omega), e, sectorWords_get s hw]

theorem refillStep_read_kept (s : State) {a : Nat} (h : ∀ w < s.params.wordsPerSector, a ≠ wordAddress s.params s.writeIndex w) :
    (refillStep s).slots.read a = s.slots.read a := by
  rw [refillStep_slots, Memory.read_writeBlock, sectorWords_length]
  refine if_neg fun hh => h (a - wordAddress s.params s.writeIndex 0) ?_ ?_ <;> unfold wordAddress at * <;> omega

/-- One iteration followed by a pass is a pass. -/
theorem afterRefill_step {s t : State} (hwi : s.writeIndex < s.params.capacity) (h : canRefill s = true)
    (ih : AfterRefill (refillStep s) t) : AfterRefill s t := by
  have hm := refillCount_step h
  have hle := refillCount_le s
  have hadd : ∀ j, ((s.writeIndex + 1) % s.params.capacity + j) % s.params.capacity = (s.writeIndex + (j + 1)) % s.params.capacity :=
    fun j => by rw [Nat.mod_add_mod]; congr 1; omega
  have hrd : s.reading = true := by simp only [canRefill, Bool.and_eq_true] at h; exact h.1
  constructor
  case occupancy => rw [ih.occupancy, hm, refillStep_occupancy]; omega
  case writeIndex => rw [ih.writeIndex, refillStep_writeIndex, refillStep_params, hadd, hm]
  case currentSector =>
    rw [ih.currentSector, refillStep_currentSector, hm]
    apply BitVec.eq_of_toNat_eq
    simp [BitVec.toNat_add]
    omega
  case sectorsRemaining => rw [ih.sectorsRemaining, refillStep_sectorsRemaining, hm]; omega
  case reading =>
    rw [ih.reading, refillStep_reading, refillStep_sectorsRemaining, hrd, hm]
    by_cases h1 : s.sectorsRemaining.toNat = 1
    · have : refillCount (refillStep s) = 0 := by simp [refillCount, refillStep_reading, h1]
      simp [h1, this]
    · simp only [h1, decide_false, Bool.not_false, Bool.and_true, Bool.true_and]
      congr 1
      apply decide_eq_decide.2
      omega
  case calls => rw [ih.calls, refillStep_source, hm]; simp only; omega
  case stored =>
    intro j hj w hw
    rw [hm] at hj
    match j with
    | 0 =>
      rw [Nat.add_zero, Nat.mod_eq_of_lt hwi, slotWord?, ih.params, refillStep_params, if_pos ⟨hwi, hw⟩, ih.kept, refillStep_read_stored s hw]
      intro j hj' v hv
      rw [refillStep_params] at hv
      rw [refillStep_params, refillStep_writeIndex]
      intro heq
      exact mod_succ_ne hwi (by omega) (wordAddress_inj hw hv heq).1.symm
    | j + 1 =>
      have := ih.stored j (by omega) w (by simpa using hw)
      rwa [refillStep_writeIndex, refillStep_params, hadd, refillWord_step] at this
  case kept =>
    intro a ha
    rw [ih.kept, refillStep_read_kept]
    · intro w hw
      simpa [Nat.mod_eq_of_lt hwi] using ha 0 (by omega) w hw
    · intro j hj w hw
      rw [refillStep_writeIndex, refillStep_params, hadd]
      exact ha (j + 1) (by omega) w (by simpa using hw)
  case script => rw [ih.script, refillStep_source]
  case params => rw [ih.params, refillStep_params]
  case readIndex => rw [ih.readIndex, refillStep_readIndex]
  case bound => rw [ih.bound, refillStep_bound]
  case boundSlotIndex => rw [ih.boundSlotIndex, refillStep_boundSlotIndex]
  case wordCursor => rw [ih.wordCursor, refillStep_wordCursor]
  case targetIsSubCpu => rw [ih.targetIsSubCpu, refillStep_targetIsSubCpu]
  case deviceDestination => rw [ih.deviceDestination, refillStep_deviceDestination]
  case dmaAddress => rw [ih.dmaAddress, refillStep_dmaAddress]
  case commands => rw [ih.commands, refillStep_commands]
  case response => rw [ih.response, refillStep_response]
  case diagLog => rw [ih.diagLog, refillStep_diagLog]

theorem afterRefill_loop (n : Nat) : ∀ s : State, s.params.capacity - s.occupancy ≤ n → s.occupancy ≤ s.params.capacity →
    s.writeIndex < s.params.capacity → AfterRefill s (refillLoop n s) := by
  induction n with
  | zero =>
    intro s hn hocc hwi
    refine afterRefill_refl hocc hwi ?_
    simp only [canRefill, Bool.and_eq_false_iff, decide_eq_false_iff_not]
    omega
  | succ n ih =>
    intro s hn hocc hwi
    rw [refillLoop]
    by_cases h : canRefill s = true
    · have hlt : s.occupancy < s.params.capacity := by
        simp only [canRefill, Bool.and_eq_true, decide_eq_true_eq] at h
        exact h.2
      rw [if_pos h]
      refine afterRefill_step hwi h (ih _ ?_ ?_ ?_)
      · simp; omega
      · simp; omega
      · simp only [refillStep_writeIndex, refillStep_params]
        exact Nat.mod_lt _ (by omega)
    · rw [if_neg h]
      exact afterRefill_refl hocc hwi (by simpa using h)

/-- The spec lemma of `refillPass`: everything one pass does (R100 to R103). -/
theorem refillPass_spec {s : State} (hocc : s.occupancy ≤ s.params.capacity) (hwi : s.writeIndex < s.params.capacity) :
    AfterRefill s (refillPass s) :=
  afterRefill_loop _ s (Nat.le_refl _) hocc hwi

/-- What holds before a pass and is kept by every iteration holds after it, in every state. -/
theorem refillPass_induction {P : State → Prop} {s : State} (h0 : P s) (hstep : ∀ t, P t → canRefill t = true → P (refillStep t)) :
    P (refillPass s) := by
  unfold refillPass
  generalize s.params.capacity - s.occupancy = n
  induction n generalizing s with
  | zero => exact h0
  | succ n ih =>
    rw [refillLoop]
    by_cases h : canRefill s = true
    · rw [if_pos h]; exact ih (hstep s h0 h)
    · rw [if_neg h]; exact h0

/-! ### What a pass leaves unchanged in every state -/

section frame
variable (s : State)

@[simp] theorem refillPass_params : (refillPass s).params = s.params :=
  refillPass_induction (P := fun t => t.params = s.params) rfl fun t h _ => by simpa using h
@[simp] theorem refillPass_readIndex : (refillPass s).readIndex = s.readIndex :=
  refillPass_induction (P := fun t => t.readIndex = s.readIndex) rfl fun t h _ => by simpa using h
@[simp] theorem refillPass_bound : (refillPass s).bound = s.bound :=
  refillPass_induction (P := fun t => t.bound = s.bound) rfl fun t h _ => by simpa using h
@[simp] theorem refillPass_boundSlotIndex : (refillPass s).boundSlotIndex = s.boundSlotIndex :=
  refillPass_induction (P := fun t => t.boundSlotIndex = s.boundSlotIndex) rfl fun t h _ => by simpa using h
@[simp] theorem refillPass_wordCursor : (refillPass s).wordCursor = s.wordCursor :=
  refillPass_induction (P := fun t => t.wordCursor = s.wordCursor) rfl fun t h _ => by simpa using h
@[simp] theorem refillPass_targetIsSubCpu : (refillPass s).targetIsSubCpu = s.targetIsSubCpu :=
  refillPass_induction (P := fun t => t.targetIsSubCpu = s.targetIsSubCpu) rfl fun t h _ => by simpa using h
@[simp] theorem refillPass_deviceDestination : (refillPass s).deviceDestination = s.deviceDestination :=
  refillPass_induction (P := fun t => t.deviceDestination = s.deviceDestination) rfl fun t h _ => by simpa using h
@[simp] theorem refillPass_dmaAddress : (refillPass s).dmaAddress = s.dmaAddress :=
  refillPass_induction (P := fun t => t.dmaAddress = s.dmaAddress) rfl fun t h _ => by simpa using h
@[simp] theorem refillPass_commands : (refillPass s).commands = s.commands :=
  refillPass_induction (P := fun t => t.commands = s.commands) rfl fun t h _ => by simpa using h
@[simp] theorem refillPass_response : (refillPass s).response = s.response :=
  refillPass_induction (P := fun t => t.response = s.response) rfl fun t h _ => by simpa using h
@[simp] theorem refillPass_diagLog : (refillPass s).diagLog = s.diagLog :=
  refillPass_induction (P := fun t => t.diagLog = s.diagLog) rfl fun t h _ => by simpa using h
@[simp] theorem refillPass_script : (refillPass s).source.script = s.source.script :=
  refillPass_induction (P := fun t => t.source.script = s.source.script) rfl fun t h _ => by simpa using h

/-- A pass only adds sectors. -/
theorem le_refillPass_occupancy : s.occupancy ≤ (refillPass s).occupancy :=
  refillPass_induction (P := fun t => s.occupancy ≤ t.occupancy) (Nat.le_refl _) fun t h _ => by simp; omega

/-- R110: a pass that finds `reading` clear, or the ring full, does nothing. -/
theorem refillPass_idle (h : canRefill s = false) : refillPass s = s := by
  unfold refillPass
  cases s.params.capacity - s.occupancy with
  | zero => rfl
  | succ n => rw [refillLoop, if_neg (by simp [h])]

end frame

end Sys2Proof.Machine
end

