-- ==== Sys2Proof/Laws/Inv.lean ====
section
/-! SUPPORT. The invariants of the block over its shared operations: what they give, and that the refill pass and `Consume` keep them. -/

namespace Sys2Proof

/-! ### Parameters -/

theorem Params.wf_iff (p : Params) : p.wf = true ↔ 1 ≤ p.capacity ∧ p.sectorBytes % 2 = 0 ∧ 2 ≤ p.sectorBytes := by
  simp [Params.wf, Params.capacityOk, Params.sectorBytesOk]

/-- R13: `WORDS_PER_SECTOR >= 3`. -/
theorem Params.three_le_wordsPerSector {p : Params} (h : p.wf = true) : 3 ≤ p.wordsPerSector := by
  have := (Params.wf_iff p).1 h
  simp only [Params.wordsPerSector, Params.payloadWords, headerWords]
  omega

end Sys2Proof

namespace Sys2Proof.Machine

namespace CdcInv
variable {s : State}

theorem capacity_pos (h : CdcInv s) : 0 < s.params.capacity := ((Params.wf_iff _).1 h.params).1

/-- R44 for the fill index. -/
theorem writeIndex_lt (h : CdcInv s) : s.writeIndex < s.params.capacity := by
  rw [h.ring]; exact Nat.mod_lt _ h.capacity_pos

theorem afterRefill (h : CdcInv s) : AfterRefill s (refillPass s) := refillPass_spec h.occupancy h.writeIndex_lt

/-- The oldest occupied slot is the one at `read_index` (R45). -/
theorem occupiedSlot_zero (h : CdcInv s) : occupiedSlot s 0 = s.readIndex := by
  simp [occupiedSlot, Nat.mod_eq_of_lt h.readIndex]

theorem occupiedSlot_lt (h : CdcInv s) (i : Nat) : occupiedSlot s i < s.params.capacity := Nat.mod_lt _ h.capacity_pos

end CdcInv

/-! ### Slot words -/

theorem slotWord?_eq_read {s : State} {slot w : Nat} (hs : slot < s.params.capacity) (hw : w < s.params.wordsPerSector) :
    slotWord? s slot w = s.slots.read (wordAddress s.params slot w) := by
  rw [slotWord?, if_pos ⟨hs, hw⟩]

theorem slotWord_of_some {s : State} {slot w : Nat} {v : Word} (h : slotWord? s slot w = some v) : slotWord s slot w = v := by
  simp [slotWord, h]

/-- A slot none of whose words a pass stores keeps its words. -/
theorem AfterRefill.slot_kept {s t : State} (h : AfterRefill s t) {slot w : Nat}
    (hne : ∀ j < refillCount s, slot ≠ (s.writeIndex + j) % s.params.capacity) : slotWord? t slot w = slotWord? s slot w := by
  unfold slotWord?
  rw [h.params]
  by_cases hc : slot < s.params.capacity ∧ w < s.params.wordsPerSector
  · rw [if_pos hc, if_pos hc]
    exact h.kept _ fun j hj v hv e => hne j hj (wordAddress_inj hc.2 hv e).1
  · rw [if_neg hc, if_neg hc]

/-! ### Positions of the ring -/

/-- Two positions less than one round apart that are different name different slots. -/
theorem ring_ne {r a b cap : Nat} (hab : a < b) (hb : b < a + cap) : (r + a) % cap ≠ (r + b) % cap := by
  intro h
  have hd : cap ∣ (r + b) - (r + a) := (Nat.modEq_iff_dvd' (by omega)).1 h
  have e : r + b - (r + a) = b - a := by omega
  rw [e] at hd
  have := Nat.le_of_dvd (by omega) hd
  omega

/-- The `j`-th slot a pass fills is the position after the occupied range (R41). -/
theorem CdcInv.fillSlot {s : State} (h : CdcInv s) (j : Nat) :
    (s.writeIndex + j) % s.params.capacity = occupiedSlot s (s.occupancy + j) := by
  rw [h.ring, Nat.mod_add_mod, occupiedSlot, Nat.add_assoc]

/-- R45 (a): a pass writes no slot of the occupied range. -/
theorem CdcInv.refill_spares_occupied {s : State} (h : CdcInv s) {i : Nat} (hi : i < s.occupancy) (w : Nat) :
    slotWord? (refillPass s) (occupiedSlot s i) w = slotWord? s (occupiedSlot s i) w := by
  refine h.afterRefill.slot_kept fun j hj => ?_
  have := refillCount_le s
  rw [h.fillSlot]
  exact ring_ne (by omega) (by omega)

/-! ### The shared operations keep the invariants -/

/-- The slot store stays in canonical form and inside its address range under a pass. -/
theorem refillPass_store {s : State} (h : CdcInv s) : (refillPass s).slots.wf = true ∧
    ∀ c ∈ (refillPass s).slots, c.1 < s.params.capacity * s.params.wordsPerSector := by
  have := refillPass_induction (s := s) (P := fun t => t.params = s.params ∧ t.writeIndex < t.params.capacity ∧
    t.slots.wf = true ∧ ∀ c ∈ t.slots, c.1 < s.params.capacity * s.params.wordsPerSector)
    ⟨rfl, h.writeIndex_lt, h.canonical, h.inStore⟩ ?_
  · exact this.2.2
  · rintro t ⟨hp, hwi, hwf, hin⟩ -
    refine ⟨by simpa using hp, ?_, ?_, ?_⟩
    · simp only [refillStep_writeIndex, refillStep_params]
      exact Nat.mod_lt _ (by omega)
    · rw [refillStep_slots]
      exact Memory.wf_writeBlock _ _ hwf
    · intro c hc
      rw [refillStep_slots] at hc
      rcases Memory.mem_writeBlock hc with hc | ⟨-, hc⟩
      · exact hin c hc
      · rw [sectorWords_length] at hc
        have hw : 0 < t.params.wordsPerSector := by simp [Params.wordsPerSector, headerWords]
        have := wordAddress_lt (p := t.params) hwi (w := t.params.wordsPerSector - 1) (by omega)
        rw [← hp]
        unfold wordAddress at *
        omega

/-- `RefillPass` keeps the invariants (R107). -/
theorem CdcInv.refillPass {s : State} (h : CdcInv s) : CdcInv (refillPass s) := by
  have a := h.afterRefill
  have hle := refillCount_le s
  have hcap := h.occupancy
  have hstore := refillPass_store h
  have hslot : ∀ i, occupiedSlot (Machine.refillPass s) i = occupiedSlot s i := fun i => by
    simp [occupiedSlot]
  constructor
  case params => rw [a.params]; exact h.params
  case occupancy => rw [a.occupancy, a.params]; omega
  case ring => rw [a.writeIndex, a.readIndex, a.occupancy, a.params, h.ring, Nat.mod_add_mod, Nat.add_assoc]
  case cursor => rw [a.wordCursor, a.params]; exact h.cursor
  case bound =>
    rw [a.bound, a.boundSlotIndex, a.readIndex, a.occupancy]
    exact fun hb => ⟨(h.bound hb).1, Nat.le_add_right_of_le (h.bound hb).2⟩
  case readIndex => rw [a.readIndex, a.params]; exact h.readIndex
  case boundSlot => rw [a.boundSlotIndex, a.params]; exact h.boundSlot
  case written =>
    intro i hi w hw
    rw [a.params] at hw
    rw [hslot]
    by_cases ho : i < s.occupancy
    · rw [h.refill_spares_occupied ho]
      exact h.written i ho w hw
    · obtain ⟨j, rfl⟩ := Nat.exists_eq_add_of_le (Nat.le_of_not_lt ho)
      rw [a.occupancy] at hi
      rw [← h.fillSlot, a.stored j (by omega) w hw]
      rfl
  case canonical => exact hstore.1
  case inStore => rw [a.params]; exact hstore.2

/-- What `Consume` does where its precondition holds, and that it is refused where it does not (R105, R106). -/
theorem consume_eq (slot : Nat) (s : State) :
    consume slot s = if 0 < s.occupancy ∧ slot = s.readIndex then some s.releaseOldest else none := rfl

/-- Releasing the oldest slot keeps the ring's invariants (R107), with nothing bound. -/
theorem CdcInv.releaseOldest {s : State} (h : CdcInv s) (hpos : 0 < s.occupancy) : CdcInv s.unbind.releaseOldest := by
  have hslot : ∀ i, occupiedSlot s.unbind.releaseOldest i = occupiedSlot s (i + 1) := fun i => by
    simp only [occupiedSlot, State.releaseOldest_readIndex, State.releaseOldest_params, State.unbind_readIndex, State.unbind_params,
      Nat.mod_add_mod]
    congr 1; omega
  constructor
  case params => exact h.params
  case occupancy => have := h.occupancy; simp only [State.releaseOldest_occupancy, State.releaseOldest_params, State.unbind_occupancy, State.unbind_params]; omega
  case ring =>
    simp only [State.releaseOldest_writeIndex, State.releaseOldest_readIndex, State.releaseOldest_occupancy, State.releaseOldest_params,
      State.unbind_writeIndex, State.unbind_readIndex, State.unbind_occupancy, State.unbind_params, Nat.mod_add_mod]
    rw [h.ring]; congr 1; omega
  case cursor => exact h.cursor
  case bound => simp
  case readIndex => exact Nat.mod_lt _ h.capacity_pos
  case boundSlot => exact h.boundSlot
  case written =>
    intro i hi w hw
    rw [hslot]
    exact h.written (i + 1) (by simp at hi; omega) w hw
  case canonical => exact h.canonical
  case inStore => exact h.inStore

end Sys2Proof.Machine
end

