-- ==== Sys2Proof/Laws/Exec.lean ====
section
/-! SUPPORT. What each operation can do, said once: the cases of the operations that have cases, in terms of the shared operations. -/

namespace Sys2Proof.Machine

/-- An operation that answers a response ends in the state with that response, and no other. -/
theorem respond_next {r : Response} {s t : State} (h : respond r s = .next t) : t = s.answer r := by
  cases h; rfl

/-- R123's table: the codes that select a target. -/
theorem targetOfCode_eq_some {code : Byte} {target : Bool} : targetOfCode code = some target ↔
    (code = 2 ∧ target = false) ∨ ((code = 3 ∨ code = 5 ∨ code = 7) ∧ target = true) := by
  unfold targetOfCode
  by_cases h2 : code = 2
  · subst h2; cases target <;> simp
  · rw [if_neg h2]
    split <;> cases target <;> simp_all

theorem targetOfCode_eq_none {code : Byte} : targetOfCode code = none ↔ code ≠ 2 ∧ code ≠ 3 ∧ code ≠ 5 ∧ code ≠ 7 := by
  unfold targetOfCode
  split
  · simp_all
  · split <;> simp_all
    tauto

/-- R122: the checks of a bind, one line per outcome. -/
theorem bindCheck_cases (s : State) :
    (s.occupancy = 0 ∧ bindCheck s = .error .busyEmpty) ∨
    (s.occupancy ≠ 0 ∧ s.bound = true ∧ bindCheck s = .error .busyBound) ∨
    (s.occupancy ≠ 0 ∧ s.bound = false ∧ targetOfCode s.deviceDestination = none ∧ bindCheck s = .error .invalidDest) ∨
    (s.occupancy ≠ 0 ∧ s.bound = false ∧ ∃ t, targetOfCode s.deviceDestination = some t ∧ bindCheck s = .ok t) := by
  by_cases ho : s.occupancy = 0
  · exact .inl ⟨ho, by simp [bindCheck, ho]⟩
  cases hb : s.bound with
  | true => exact .inr (.inl ⟨ho, rfl, by simp [bindCheck, ho, hb]⟩)
  | false =>
    cases ht : targetOfCode s.deviceDestination with
    | none => exact .inr (.inr (.inl ⟨ho, rfl, rfl, by simp [bindCheck, ho, hb, ht]⟩))
    | some t => exact .inr (.inr (.inr ⟨ho, rfl, t, rfl, by simp [bindCheck, ho, hb, ht]⟩))

/-- `BEGINREAD` after its refill, one line per outcome (R121, R122). -/
theorem bindOrFail_cases (s : State) :
    ((s.occupancy = 0 ∨ s.bound = true) ∧ bindOrFail s = .next (s.answer (.bind none))) ∨
    (s.occupancy ≠ 0 ∧ s.bound = false ∧ targetOfCode s.deviceDestination = none ∧
      bindOrFail s = .next ((s.emitDiag s.deviceDestination).answer (.bind none))) ∨
    (s.occupancy ≠ 0 ∧ s.bound = false ∧ ∃ t, targetOfCode s.deviceDestination = some t ∧
      bindOrFail s = .next ((s.bindOldest t).answer (.bind (some (oldestHeader s))))) := by
  rcases bindCheck_cases s with ⟨ho, h⟩ | ⟨-, hb, h⟩ | ⟨ho, hb, ht, h⟩ | ⟨ho, hb, t, ht, h⟩
  · exact .inl ⟨.inl ho, by rw [bindOrFail, h]; rfl⟩
  · exact .inl ⟨.inr hb, by rw [bindOrFail, h]; rfl⟩
  · exact .inr (.inl ⟨ho, hb, ht, by rw [bindOrFail, h]; rfl⟩)
  · exact .inr (.inr ⟨ho, hb, t, ht, by rw [bindOrFail, h]; rfl⟩)

/-- `READWORD`, one line per outcome (R125). -/
theorem execReadword_cases (cpu : Cpu) (s : State) :
    ((cpu.isSub ≠ s.targetIsSubCpu ∨ s.bound = false) ∧ execReadword cpu s = .next (s.answer (.word 0))) ∨
    (cpu.isSub = s.targetIsSubCpu ∧ s.bound = true ∧ s.wordCursor = s.params.wordsPerSector ∧
      execReadword cpu s = .next (s.answer (.word (slotWord s s.boundSlotIndex (s.params.wordsPerSector - 1))))) ∨
    (cpu.isSub = s.targetIsSubCpu ∧ s.bound = true ∧ s.wordCursor ≠ s.params.wordsPerSector ∧
      execReadword cpu s = .next (s.advanceCursor.answer (.word (slotWord s s.boundSlotIndex s.wordCursor)))) := by
  by_cases hc : cpu.isSub = s.targetIsSubCpu
  · cases hb : s.bound with
    | false => exact .inl ⟨.inr rfl, by simp [execReadword, readCheck, isTarget, hc, hb, readSentinel, respond]⟩
    | true =>
      by_cases hw : s.wordCursor = s.params.wordsPerSector
      · exact .inr (.inl ⟨hc, rfl, hw, by simp [execReadword, readCheck, isTarget, hc, hb, hw, respond]⟩)
      · exact .inr (.inr ⟨hc, rfl, hw, by simp [execReadword, readCheck, isTarget, hc, hb, hw, respond]⟩)
  · exact .inl ⟨.inl hc, by simp [execReadword, readCheck, isTarget, hc, readSentinel, respond]⟩

/-- `ACK`, one line per outcome (R105, R106, R128). -/
theorem execAck_cases (s : State) :
    (s.bound = false ∧ execAck s = .next (s.answer .done)) ∨
    (s.bound = true ∧ (0 < s.occupancy ∧ s.boundSlotIndex = s.readIndex) ∧
      execAck s = .next (s.unbind.releaseOldest.answer .done)) ∨
    (s.bound = true ∧ ¬ (0 < s.occupancy ∧ s.boundSlotIndex = s.readIndex) ∧ execAck s = .refused .consumePrecondition) := by
  cases hb : s.bound with
  | false => exact .inl ⟨rfl, by simp [execAck, hb, respond]⟩
  | true =>
    by_cases hp : 0 < s.occupancy ∧ s.boundSlotIndex = s.readIndex
    · exact .inr (.inl ⟨rfl, hp, by simp [execAck, hb, consume_eq, hp, respond]⟩)
    · exact .inr (.inr ⟨rfl, hp, by simp [execAck, hb, consume_eq, hp]⟩)

/-- The value of `MODE`, by the cursor (R149). -/
theorem modeValue_cases (cpu : Cpu) (s : State) (hW : 3 ≤ s.params.wordsPerSector) :
    (cpu.isSub ≠ s.targetIsSubCpu ∧ modeValue cpu s = 0x8000) ∨
    (cpu.isSub = s.targetIsSubCpu ∧ s.wordCursor < s.params.wordsPerSector - 1 ∧ modeValue cpu s = 0x4000) ∨
    (cpu.isSub = s.targetIsSubCpu ∧ s.wordCursor = s.params.wordsPerSector - 1 ∧ modeValue cpu s = 0xC000) ∨
    (cpu.isSub = s.targetIsSubCpu ∧ s.wordCursor = s.params.wordsPerSector ∧ modeValue cpu s = 0x8000) ∨
    (cpu.isSub = s.targetIsSubCpu ∧ s.params.wordsPerSector < s.wordCursor ∧ modeValue cpu s = 0xC000) := by
  by_cases hc : cpu.isSub = s.targetIsSubCpu
  · have e : modeValue cpu s = flagWord (edt s) (dsr s) := by simp [modeValue, isTarget, hc]
    rw [e]
    rcases Nat.lt_trichotomy s.wordCursor (s.params.wordsPerSector - 1) with h | h | h
    · have h1 : edt s = false := by simp [edt]; omega
      have h2 : dsr s = true := by simp [dsr]; omega
      exact .inr (.inl ⟨hc, h, by rw [h1, h2]; rfl⟩)
    · have h1 : edt s = true := by simp [edt]; omega
      have h2 : dsr s = true := by simp [dsr]; omega
      exact .inr (.inr (.inl ⟨hc, h, by rw [h1, h2]; rfl⟩))
    · have h1 : edt s = true := by simp [edt]; omega
      by_cases hw : s.wordCursor = s.params.wordsPerSector
      · have h2 : dsr s = false := by simp [dsr, hw]
        exact .inr (.inr (.inr (.inl ⟨hc, hw, by rw [h1, h2]; rfl⟩)))
      · have h2 : dsr s = true := by simp [dsr, hw]
        exact .inr (.inr (.inr (.inr ⟨hc, by omega, by rw [h1, h2]; rfl⟩)))
  · exact .inl ⟨hc, by simp [modeValue, isTarget, hc, edtMask]⟩

end Sys2Proof.Machine
end

