-- ==== Sys2Proof/Laws/PerInstr.lean ====
section
/-! SUPPORT. Facts about every instruction as syntax, one lemma per constructor. -/

namespace Sys2Proof.Laws.EncodesInItsRow

/-- The encoded word carries the operation code of the instruction's own row of R74's table, the reserved field is 0 (R70), and the
row's mnemonic is the instruction's. -/
def Statement (i : Instr) : Prop :=
  (∃ r ∈ opcodeTable, r.mnemonic = i.mnemonic ∧ opField (encode i) = r.op) ∧ rsvField (encode i) = 0

theorem init : Statement .init := ⟨⟨_, List.getElem_mem (n := 0) (by decide), rfl, by simp [encode]; rfl⟩, by simp [encode]⟩
theorem start : Statement .start := ⟨⟨_, List.getElem_mem (n := 1) (by decide), rfl, by simp [encode]; rfl⟩, by simp [encode]⟩
theorem stop : Statement .stop := ⟨⟨_, List.getElem_mem (n := 2) (by decide), rfl, by simp [encode]; rfl⟩, by simp [encode]⟩
theorem poll : Statement .poll := ⟨⟨_, List.getElem_mem (n := 3) (by decide), rfl, by simp [encode]; rfl⟩, by simp [encode]⟩
theorem beginread : Statement .beginread := ⟨⟨_, List.getElem_mem (n := 4) (by decide), rfl, by simp [encode]; rfl⟩, by simp [encode]⟩
theorem readword (cpu : Cpu) : Statement (.readword cpu) :=
  ⟨⟨_, List.getElem_mem (n := 5) (by decide), rfl, by simp [encode]; rfl⟩, by simp [encode]⟩
theorem ack : Statement .ack := ⟨⟨_, List.getElem_mem (n := 6) (by decide), rfl, by simp [encode]; rfl⟩, by simp [encode]⟩
theorem seek (sectorIndex totalSectors : SectorWord) : Statement (.seek sectorIndex totalSectors) :=
  ⟨⟨_, List.getElem_mem (n := 7) (by decide), rfl, by simp [encode]; rfl⟩, by simp [encode]⟩
theorem mode (cpu : Cpu) : Statement (.mode cpu) :=
  ⟨⟨_, List.getElem_mem (n := 8) (by decide), rfl, by simp [encode]; rfl⟩, by simp [encode]⟩
theorem setdest (code : Byte) : Statement (.setdest code) :=
  ⟨⟨_, List.getElem_mem (n := 9) (by decide), rfl, by simp [encode]; rfl⟩, by simp [encode]⟩
theorem setdma (addr : Word) : Statement (.setdma addr) :=
  ⟨⟨_, List.getElem_mem (n := 10) (by decide), rfl, by simp [encode]; rfl⟩, by simp [encode]⟩

end Sys2Proof.Laws.EncodesInItsRow
end

