-- ==== Sys2Proof/Tests/Slice0.lean ====
section
/-! SUPPORT. Tests: expected values are those of spec/95_test_vectors.md (named at each test) or worked by hand from the rule cited. Witnesses: for each obligation with hypotheses, a concrete case that meets all of them together. -/

namespace Sys2Proof.Tests
open Sys2Proof Sys2Proof.Machine

/-! ### Well-formedness refuses what is ill formed -/

theorem test_default_parameters_wf : Params.default.wf = true := by decide
theorem test_smallest_parameters_wf : (Params.mk 1 2 0xFF).wf = true := by decide
theorem test_capacity_zero_refused : (Params.mk 0 2048 1).wf = false := by decide
theorem test_sector_bytes_zero_refused : (Params.mk 5 0 1).wf = false := by decide
theorem test_sector_bytes_odd_refused : (Params.mk 5 2047 1).wf = false := by decide
theorem test_largest_operand_fits : (Listing.seek 4294967295 4294967295).wf = true := by decide
theorem test_seek_first_number_refused : (Listing.seek 4294967296 0).wf = false := by decide
theorem test_seek_second_number_refused : (Listing.seek 0 4294967296).wf = false := by decide
theorem test_setdest_number_refused : (Listing.setdest 4294967296).wf = false := by decide
theorem test_setdma_number_refused : (Listing.setdma 4294967296).wf = false := by decide
theorem test_play_first_number_refused : (Listing.play 4294967296 3).wf = false := by decide
theorem test_play_second_number_refused : (Listing.play 74 4294967296).wf = false := by decide

/-! ### Decoding and encoding (V-ENC-1, V-ENC-2; bit 71 is written first) -/

theorem test_decode_init : decode 0b0000_0_000_00000000000000000000000000000000_00000000000000000000000000000000 = .ok .init := rfl
theorem test_decode_init_ignores_fields : decode 0x0FFFFFFFFFFFFFFFFF = .ok .init := rfl
theorem test_decode_start : decode 0x100000000000000000 = .ok .start := rfl
theorem test_decode_stop : decode 0x200000000000000000 = .ok .stop := rfl
theorem test_decode_poll_ignores_fields : decode 0x3800000000DEADBEEF = .ok .poll := rfl
theorem test_decode_beginread : decode 0b0100_0_000_00000000000000000000000000000000_00000000000000000000000000000000 = .ok .beginread := rfl
theorem test_decode_readword_sub : decode 0b0101_1_000_00000000000000000000000000000000_00000000000000000000000000000000 = .ok (.readword .sub) := rfl
theorem test_decode_readword_main_ignores_rsv : decode 0x5700000000DEADBEEF = .ok (.readword .main) := rfl
theorem test_decode_ack : decode 0x600000000000000000 = .ok .ack := rfl
/-- `SEEK 74, 3`: `a` = 64 + 8 + 2, `b` = 2 + 1. -/
theorem test_decode_seek : decode 0b0111_0_000_00000000000000000000000001001010_00000000000000000000000000000011 = .ok (.seek 74 3) := rfl
theorem test_decode_seek_all_ones : decode 0x7FFFFFFFFFFFFFFFFF = .ok (.seek 4294967295 4294967295) := rfl
theorem test_decode_mode_sub_ignores_rsv : decode 0x8F0000000000000000 = .ok (.mode .sub) := rfl
theorem test_decode_mode_main : decode 0x800000000000000000 = .ok (.mode .main) := rfl
theorem test_decode_setdest_low_byte : decode 0x900000010500000000 = .ok (.setdest 5) := rfl
theorem test_decode_setdma_low_half : decode 0xA00001234500000000 = .ok (.setdma 0x2345) := rfl
theorem test_decode_reserved_11 : decode 0xB00000000000000000 = .error (.reservedOperation 11) := rfl
theorem test_decode_reserved_15 : decode 0xFFFFFFFFFFFFFFFFFF = .error (.reservedOperation 15) := rfl
theorem test_decode_table_word : decodeTableWord 72 0x700006DDCE00000007 = some (.seek 449998 7) := rfl
theorem test_decode_table_word_reserved : decodeTableWord 72 0xC00000000000000000 = none := rfl

theorem test_encode_readword_sub : encode (.readword .sub) = 0x580000000000000000 := rfl
theorem test_encode_seek : encode (.seek 449998 7) = 0x700006DDCE00000007 := rfl
theorem test_encode_mode_main : encode (.mode .main) = 0x800000000000000000 := rfl
theorem test_encode_setdest : encode (.setdest 255) = 0x90000000FF00000000 := rfl
theorem test_encode_setdma : encode (.setdma 0xFFFF) = 0xA00000FFFF00000000 := rfl
/-- R70: 18 hexadecimal digits, the most significant first. -/
theorem test_hex_digits : hexDigits 0x700006DDCE00000007 = [7, 0, 0, 0, 0, 6, 0xD, 0xD, 0xC, 0xE, 0, 0, 0, 0, 0, 0, 0, 7] := rfl
/-- R81 at `WORDS_PER_SECTOR` = 3. -/
theorem test_drain_expands : assemble ⟨1, 2, 1⟩ (.drain .sub) =
    [0x400000000000000000, 0x580000000000000000, 0x580000000000000000, 0x580000000000000000, 0x600000000000000000] := rfl
theorem test_play_text : (Listing.play 74 3).text = "PLAY 74, 3" := by decide

/-! ### The timecode encoder (V-TC-1, V-TC-2) -/

theorem test_bcd_99 : bcd 99 = 0x99 := rfl
theorem test_bcd_loses_bits : bcd 954437 = 0x37 := rfl
theorem test_header_12345 : headerOf 0x01 12345 = 0x02444501 := rfl
theorem test_header_last_index : headerOf 0x01 4294967295 = 0x37104501 := rfl

/-- R81: `PLAY` has no encoding of its own (V-ENC-1's word of `SEEK 74, 3`, then `START`'s). -/
theorem test_play_expands : assemble ⟨4, 4, 1⟩ (.play 74 3) = [0x700000004A00000003, 0x100000000000000000] := rfl

/-! ### States: `P_small`, `TS`, and V-RB-2's slots -/

/-- `P_small` (95_test_vectors.md section 1). -/
def small : Params := ⟨4, 4, 0x01⟩

/-- The first six answers of `TS` at `P_small`. -/
def ts : List (List Byte) :=
  [[0x10, 0x11, 0x12, 0x13], [0x20, 0x21, 0x22, 0x23], [0x30, 0x31, 0x32, 0x33],
   [0x40, 0x41, 0x42, 0x43], [0x50, 0x51, 0x52, 0x53], [0x60, 0x61, 0x62, 0x63]]

/-- Reset with the source `TS`. -/
def fresh : State := { State.resetOf small with source := ⟨ts, 0⟩ }

/-- Sectors 74 and 75 buffered in slots 0 and 1 (V-RB-2's rows), stopped. -/
def two : State :=
  { fresh with
    currentSector := 76
    slots := [(0, 0x0000), (1, 0x7401), (2, 0x1011), (3, 0x1213), (4, 0x0001), (5, 0x0001), (6, 0x2021), (7, 0x2223)]
    writeIndex := 2
    occupancy := 2
    source := ⟨ts, 2⟩ }

/-- A transfer of sector 74 to the sub CPU, with the cursor at `wc`. -/
def boundAt (wc : Nat) : State := { two with bound := true, wordCursor := wc }

/-- `two` with the ring full: slots 2 and 3 hold sectors 76 and 77 (V-RB-2). -/
def full : State :=
  { two with
    currentSector := 78
    slots := two.slots ++ [(8, 0x0001), (9, 0x0101), (10, 0x3031), (11, 0x3233), (12, 0x0001), (13, 0x0201), (14, 0x4041), (15, 0x4243)]
    writeIndex := 0
    occupancy := 4
    source := ⟨ts, 4⟩ }

theorem inv_fresh : CdcInv fresh := ⟨by decide, by decide, by decide, by decide, by decide, by decide, by decide, by decide, by decide, by decide⟩
theorem inv_two : CdcInv two := ⟨by decide, by decide, by decide, by decide, by decide, by decide, by decide, by decide, by decide, by decide⟩
theorem inv_full : CdcInv full := ⟨by decide, by decide, by decide, by decide, by decide, by decide, by decide, by decide, by decide, by decide⟩
theorem inv_bound (wc : Nat) (h : wc ≤ 4) : CdcInv (boundAt wc) :=
  ⟨inv_two.params, inv_two.occupancy, inv_two.ring, Nat.le_trans h (by decide : 4 ≤ small.wordsPerSector), fun _ => ⟨rfl, (by decide : 1 ≤ 2)⟩, inv_two.readIndex, inv_two.boundSlot, inv_two.written,
   inv_two.canonical, inv_two.inStore⟩
theorem inv_dest {s : State} (h : CdcInv s) (code : Byte) : CdcInv { s with deviceDestination := code } :=
  ⟨h.params, h.occupancy, h.ring, h.cursor, h.bound, h.readIndex, h.boundSlot, h.written, h.canonical, h.inStore⟩
theorem inv_reading {s : State} (h : CdcInv s) (rd : Bool) (rem : SectorWord) :
    CdcInv { s with reading := rd, sectorsRemaining := rem } :=
  ⟨h.params, h.occupancy, h.ring, h.cursor, h.bound, h.readIndex, h.boundSlot, h.written, h.canonical, h.inStore⟩

theorem test_reset_memory_wf : State.reset.slots.wf = true := rfl
/-- A word store that lists a word twice is not in canonical form. -/
theorem test_memory_repeat_not_wf : Memory.wf [(3, 0), (3, 1)] = false := rfl

/-! ### One operation each -/

/-- V-HT-4 step 14: the record is reset, the source's cursor stays. -/
theorem test_init : exec .init (boundAt 3) = .next { fresh with slots := two.slots, source := ⟨ts, 2⟩, response := some .done } := rfl

/-- V-CS-3, first row, at `P_small`: a bounded run of three, in V-RB-2's slots. -/
theorem test_start : exec .start { fresh with currentSector := 74, sectorsRemaining := 3 } = .next { fresh with
    currentSector := 77, writeIndex := 3, occupancy := 3, source := ⟨ts, 3⟩, response := some .done
    slots := two.slots ++ [(8, 0x0001), (9, 0x0101), (10, 0x3031), (11, 0x3233)] } := rfl

/-- V-RB-1, `sectors_remaining` = 0: the ring is filled and `reading` stays (V-RB-2). -/
theorem test_start_unbounded : exec .start { two with reading := false } = .next { full with reading := true, response := some .done } := rfl

/-- V-CS-3: `STOP` clears `reading` only. -/
theorem test_stop : exec .stop { full with reading := true } = .next { full with response := some .done } := rfl

/-- P2 step 23: stopped, the free slots are not refilled. -/
theorem test_poll : exec .poll two = .next { two with response := some (.ready true) } := rfl
/-- P1 step 28. -/
theorem test_poll_empty : exec .poll fresh = .next { fresh with response := some (.ready false) } := rfl

/-- P1 step 5. -/
theorem test_beginread : exec .beginread two = .next { boundAt 0 with response := some (.bind (some 0x00007401)) } := rfl
/-- V-HT-5, third row. -/
theorem test_beginread_invalid : exec .beginread { two with deviceDestination := 4 } =
    .next { two with deviceDestination := 4, response := some (.bind none), diagLog := [4] } := rfl

/-- P1 step 10. -/
theorem test_readword : exec (.readword .sub) (boundAt 2) = .next { boundAt 3 with response := some (.word 0x1011) } := rfl
/-- P1 step 14: the sticky repeat. -/
theorem test_readword_sticky : exec (.readword .sub) (boundAt 4) = .next { boundAt 4 with response := some (.word 0x1213) } := rfl

/-- P1 step 15. -/
theorem test_ack : exec .ack (boundAt 4) =
    .next { two with readIndex := 1, occupancy := 1, wordCursor := 4, response := some .done } := rfl
/-- P2 step 22: nothing bound. -/
theorem test_ack_ignored : exec .ack two = .next { two with response := some .done } := rfl

/-- V-CS-3, seventh row. -/
theorem test_seek : exec (.seek 100 3) fresh = .next { fresh with currentSector := 100, sectorsRemaining := 3, response := some .done } := rfl
/-- R143 with `reading` = 1: one sector (index 9000, header 02:00:00) is stored at once, under the new numbering (V-CS-3, eighth row). -/
theorem test_seek_refills : exec (.seek 9000 1) { two with reading := true } = .next { two with
    currentSector := 9001, writeIndex := 3, occupancy := 3, source := ⟨ts, 3⟩, response := some .done
    slots := two.slots ++ [(8, 0x0200), (9, 0x0001), (10, 0x3031), (11, 0x3233)] } := rfl

/-- V-CS-1 at `P_small`: the next word is the last. -/
theorem test_mode : exec (.mode .sub) (boundAt 3) = .next { boundAt 3 with response := some (.word 0xC000) } := rfl
/-- V-CS-1: the other CPU. -/
theorem test_mode_other_cpu : exec (.mode .main) (boundAt 0) = .next { boundAt 0 with response := some (.word 0x8000) } := rfl

/-- V-CS-2. -/
theorem test_setdest : exec (.setdest 4) two = .next { two with deviceDestination := 4, response := some .done } := rfl
/-- V-CS-2. -/
theorem test_setdma : exec (.setdma 0x2345) two = .next { two with dmaAddress := 0x2345, response := some .done } := rfl

/-- V-RB-4. -/
theorem test_consume_wraps : consume 3 { full with readIndex := 3, writeIndex := 3 } =
    some { full with readIndex := 0, writeIndex := 3, occupancy := 3 } := rfl

/-- A step at the default parameters takes its word and runs it. -/
theorem test_step : step (State.reset.withFetchWord 72 0x900000010500000000) =
    .next { State.reset with deviceDestination := 5, response := some .done } := rfl
theorem test_step_reserved : step (State.reset.withFetchWord 72 0xB00000000000000000) = .refused (.reservedOperation 11) := rfl

/-- The packed failed bind leaves its low bits to the free argument (R76). -/
theorem test_pack_failed_bind : packResponse 0xDEADBEEF (.bind none) = 0x0DEADBEEF := rfl

/-! ### Witnesses -/

theorem witness_decodeEncodeRoundTrip : decode 0x5F00000000DEADBEEF = .ok (.readword .sub) := rfl
theorem witness_opcodeTableSelectsTheOperation :
    (⟨7, "SEEK", .V, 0x700000000000000000, 0xF00000000000000000⟩ : OpcodeRow) ∈ opcodeTable ∧
    decode 0x7FFFFFFFFFFFFFFFFF = .ok (.seek 4294967295 4294967295) := ⟨by decide, rfl⟩
theorem witness_ignoredFieldsChangeNothing : decode 0x900000010500000000 = .ok (.setdest 5) ∧
    (0x900000010500000000 : CommandWord) &&& usedBits (.setdest 5) = 0x9F00000005DEADBEEF &&& usedBits (.setdest 5) := ⟨rfl, rfl⟩
/-- The least and the greatest reserved code. -/
theorem witness_reservedCodesAreRefused : 11 ≤ (opField 0xB00000000000000000).toNat ∧ 11 ≤ (opField 0xFFFFFFFFFFFFFFFFFF).toNat ∧
    ¬ 11 ≤ (opField 0xA00000000000000000).toNat ∧
    ({ two with commands := [0xB00000000000000000] } : State).commands = 0xB00000000000000000 :: [] := ⟨by decide, by decide, by decide, rfl⟩
theorem witness_listingsDecodeToTheirOperations : (Listing.seek 4294967295 0).wf = true ∧ (Listing.setdest 261).wf = true ∧
    (Listing.setdma 0x12345).wf = true ∧ (Listing.play 74 3).wf = true := ⟨by decide, by decide, by decide, by decide⟩
theorem witness_stepRunsTheDecodedOperation :
    ({ two with commands := [0x300000000000000000, 0] } : State).commands = 0x300000000000000000 :: [0] ∧
    decode 0x300000000000000000 = .ok .poll ∧ decode (BitVec.ofNat 72 (0x300000000000000000 % 2 ^ 72)) = .ok .poll ∧ two.commands = [] :=
  ⟨rfl, rfl, rfl, rfl⟩

theorem witness_bcdPacksTwoDigits : 99 ≤ 99 := by decide
/-- The last index of the valid range, the first and the last of the invalid one, and two different indices below. -/
theorem witness_timecodeDecodesBack : (449999 : SectorWord).toNat < 450000 ∧ 450000 ≤ (450000 : SectorWord).toNat ∧
    (719999 : SectorWord).toNat < 720000 ∧ (12345 : SectorWord).toNat < 450000 ∧
    encodeHeader 1 12345 = encodeHeader 1 (BitVec.ofNat 32 12345) := ⟨by decide, by decide, by decide, by decide, rfl⟩

theorem witness_resetMeetsTheInvariants : (Params.mk 1 2 0).wf = true := by decide
theorem witness_everyOperationKeepsTheInvariants : CdcInv two ∧
    exec .beginread two = .next { boundAt 0 with response := some (.bind (some 0x00007401)) } ∧
    step (two.withFetchWord 72 0x400000000000000000) = .next { boundAt 0 with response := some (.bind (some 0x00007401)) } ∧
    CdcInv (two.withFetchWord 72 0x400000000000000000) :=
  ⟨inv_two, rfl, rfl, ⟨inv_two.params, inv_two.occupancy, inv_two.ring, inv_two.cursor, inv_two.bound, inv_two.readIndex,
    inv_two.boundSlot, inv_two.written, inv_two.canonical, inv_two.inStore⟩⟩
/-- Ring empty, ring full, transfer bound and read out. -/
theorem witness_everyOperationCompletes : CdcInv fresh ∧ CdcInv full ∧ CdcInv (boundAt 4) := ⟨inv_fresh, inv_full, inv_bound 4 (by decide)⟩
theorem witness_everySequenceRuns : CdcInv fresh ∧
    responses [.setdest 4, .beginread, .ack] fresh = some [.done, .bind none, .done] := ⟨inv_fresh, rfl⟩
/-- One operation of each response shape. -/
theorem witness_responseShapes : exec .ack two = .next { two with response := some .done } ∧
    exec .poll two = .next { two with response := some (.ready true) } ∧
    exec .beginread two = .next { boundAt 0 with response := some (.bind (some 0x00007401)) } ∧
    exec (.mode .main) (boundAt 0) = .next { boundAt 0 with response := some (.word 0x8000) } := ⟨rfl, rfl, rfl, rfl⟩
theorem witness_answersRightAfterReset : (Params.mk 1 2 0).wf = true ∧ Params.default.wf = true := ⟨by decide, by decide⟩

/-- A bounded run that ends, and one that meets the full ring. -/
theorem witness_startSetsReadingAndRefills : CdcInv { two with reading := false, sectorsRemaining := 2 } ∧ CdcInv full :=
  ⟨inv_reading inv_two _ _, inv_full⟩
theorem witness_seekSetsPositionAndRefills : CdcInv { two with reading := true, sectorsRemaining := 0 } := inv_reading inv_two _ _
theorem witness_stopOnlyHaltsRefilling : CdcInv { two with reading := true, sectorsRemaining := 0 } ∧
    exec .stop { two with reading := true, sectorsRemaining := 0 } = .next { two with response := some .done } := ⟨inv_reading inv_two _ _, rfl⟩
/-- An operation that keeps the register and one that sets it. -/
theorem witness_settersWriteOneRegister : Instr.stop ≠ .beginread ∧ Instr.init ≠ .beginread ∧
    exec .stop two = .next { two with response := some .done } ∧
    exec .init (boundAt 3) = .next { fresh with slots := two.slots, source := ⟨ts, 2⟩, response := some .done } :=
  ⟨by decide, by decide, rfl, rfl⟩
/-- The target and the other CPU, at each boundary of the cursor (`WORDS_PER_SECTOR` = 4). -/
theorem witness_modeReturnsTheFlags : CdcInv (boundAt 2) ∧ CdcInv (boundAt 3) ∧ CdcInv (boundAt 4) ∧
    Cpu.main.isSub ≠ (boundAt 2).targetIsSubCpu ∧ Cpu.sub.isSub = (boundAt 2).targetIsSubCpu ∧
    (boundAt 2).wordCursor ≤ (boundAt 2).params.wordsPerSector - 2 ∧
    (boundAt 3).wordCursor = (boundAt 3).params.wordsPerSector - 1 ∧
    (boundAt 4).wordCursor = (boundAt 4).params.wordsPerSector :=
  ⟨inv_bound 2 (by decide), inv_bound 3 (by decide), inv_bound 4 (by decide), by decide, by decide, by decide, by decide, by decide⟩
/-- A bind, `INIT`, a delivering read that sets `EDT`, one that clears `DSR`, a sticky read, an `ACK`. -/
theorem witness_flagsFollowTheCursor : CdcInv two ∧ CdcInv (boundAt 2) ∧ CdcInv (boundAt 3) ∧ CdcInv (boundAt 4) ∧
    exec .beginread two = .next { boundAt 0 with response := some (.bind (some 0x00007401)) } ∧
    bindSucceeded { boundAt 0 with response := some (.bind (some 0x00007401)) } ∧
    exec .init (boundAt 3) = .next { fresh with slots := two.slots, source := ⟨ts, 2⟩, response := some .done } ∧
    exec (.readword .sub) (boundAt 2) = .next { boundAt 3 with response := some (.word 0x1011) } ∧
    exec (.readword .sub) (boundAt 3) = .next { boundAt 4 with response := some (.word 0x1213) } ∧
    exec (.readword .sub) (boundAt 4) = .next { boundAt 4 with response := some (.word 0x1213) } ∧
    exec .ack (boundAt 4) = .next { two with readIndex := 1, occupancy := 1, wordCursor := 4, response := some .done } :=
  ⟨inv_two, inv_bound 2 (by decide), inv_bound 3 (by decide), inv_bound 4 (by decide), rfl, ⟨_, rfl⟩, rfl, rfl, rfl, rfl, rfl⟩

/-- A refilling operation that stores, and one that does not refill. -/
theorem witness_whichOperationsRefill : CdcInv two ∧ refills .start = true ∧ refills .stop = false ∧
    exec .start two = .next { full with reading := true, response := some .done } ∧ refillCount (refillStart .start two) = 2 ∧
    exec .stop two = .next { two with response := some .done } := ⟨inv_two, rfl, rfl, rfl, rfl, rfl⟩
/-- Stopped, and full while reading. -/
theorem witness_idlePassChangesNothing : CdcInv two ∧ two.reading = false ∧ CdcInv { full with reading := true, sectorsRemaining := 3 } ∧
    full.occupancy = full.params.capacity := ⟨inv_two, rfl, inv_reading inv_full _ _, rfl⟩
theorem witness_refillStoresTheSourceAnswers : CdcInv two ∧ refills .start = true ∧
    exec .start two = .next { full with reading := true, response := some .done } ∧ 1 < refillCount (refillStart .start two) ∧
    1 < two.params.payloadWords ∧
    two.source.script[two.source.calls + 1]? = some [0x40, 0x41, 0x42, 0x43] ∧
    [(0x40 : Byte), 0x41, 0x42, 0x43][2 * 1]? = some 0x42 ∧ [(0x40 : Byte), 0x41, 0x42, 0x43][2 * 1 + 1]? = some 0x43 :=
  ⟨inv_two, rfl, rfl, by decide, by decide, rfl, rfl, rfl⟩
theorem witness_refillStoresTheHeader : CdcInv two ∧ refills .poll = true ∧ refills (.seek 9000 1) = true ∧
    exec .poll two = .next { two with response := some (.ready true) } ∧
    exec .start two = .next { full with reading := true, response := some .done } ∧ 1 < refillCount (refillStart .start two) :=
  ⟨inv_two, rfl, rfl, rfl, rfl, by decide⟩
/-- Unbounded; a count that just fits the room left; a count of one more. -/
theorem witness_boundedAndUnboundedRuns : CdcInv two ∧ two.sectorsRemaining = 0 ∧
    CdcInv { two with reading := false, sectorsRemaining := 2 } ∧ (2 : SectorWord) ≠ 0 ∧
    (2 : SectorWord).toNat ≤ two.params.capacity - two.occupancy ∧
    CdcInv { two with reading := false, sectorsRemaining := 3 } ∧ two.params.capacity - two.occupancy < (3 : SectorWord).toNat :=
  ⟨inv_two, rfl, inv_reading inv_two _ _, by decide, by decide, inv_reading inv_two _ _, by decide⟩
theorem witness_runOfThreeSectors : CdcInv { fresh with reading := false, sectorsRemaining := 3 } ∧ fresh.occupancy = 0 ∧
    3 ≤ fresh.params.capacity := ⟨inv_reading inv_fresh _ _, rfl, by decide⟩
/-- The precondition holds; it fails on an empty ring and on another slot; a state outside the invariants; one inside them. -/
theorem witness_consumeHasAPrecondition : (0 < two.occupancy ∧ 0 = two.readIndex) ∧ ¬ (0 < fresh.occupancy ∧ 0 = fresh.readIndex) ∧
    ¬ (0 < two.occupancy ∧ 1 = two.readIndex) ∧
    (({ fresh with bound := true } : State).bound = true ∧ ¬ (0 < fresh.occupancy ∧ fresh.boundSlotIndex = fresh.readIndex)) ∧
    CdcInv (boundAt 4) := ⟨by decide, by decide, by decide, by decide, inv_bound 4 (by decide)⟩
theorem witness_occupiedSlotsAreNeverOverwritten : CdcInv two ∧ Instr.start ≠ .init ∧ 1 < two.occupancy ∧
    exec .start two = .next { full with reading := true, response := some .done } := ⟨inv_two, by decide, by decide, rfl⟩
/-- A pass that stores, an `ACK` of a bound transfer, `INIT`, an operation that leaves the ring alone, a bind that succeeds. -/
theorem witness_ringIsAQueue : CdcInv two ∧ CdcInv (boundAt 4) ∧
    exec .start two = .next { full with reading := true, response := some .done } ∧
    (exec .ack (boundAt 4) = .next { two with readIndex := 1, occupancy := 1, wordCursor := 4, response := some .done } ∧
      (boundAt 4).bound = true) ∧
    exec .init (boundAt 3) = .next { fresh with slots := two.slots, source := ⟨ts, 2⟩, response := some .done } ∧
    exec .stop two = .next { two with response := some .done } ∧
    exec .beginread two = .next { boundAt 0 with response := some (.bind (some 0x00007401)) } :=
  ⟨inv_two, inv_bound 4 (by decide), rfl, ⟨rfl, rfl⟩, rfl, rfl, rfl⟩
/-- The codes `2`, `3`, `5` and `7`, on an empty ring with nothing bound. -/
theorem witness_seekRunYieldsConsecutiveHeaders : ∀ code ∈ [(2 : Byte), 3, 5, 7],
    CdcInv { fresh with deviceDestination := code } ∧ fresh.occupancy = 0 ∧ fresh.bound = false ∧ (code = 2 ∨ code = 3 ∨ code = 5 ∨ code = 7) :=
  fun code h => ⟨inv_dest inv_fresh code, rfl, rfl, by simpa using h⟩

theorem witness_pollRefillsAndReports : CdcInv fresh ∧ CdcInv { two with reading := true, sectorsRemaining := 1 } :=
  ⟨inv_fresh, inv_reading inv_two _ _⟩
/-- Empty; bound; an invalid code (the neighbours of the valid ones); each valid code. The pass stores nothing in these states, so the
occupancy after it is the occupancy before it. -/
theorem witness_beginReadBindsOrFails : (CdcInv fresh ∧ (refillPass fresh).occupancy = 0) ∧
    (CdcInv (boundAt 2) ∧ (refillPass (boundAt 2)).occupancy ≠ 0 ∧ (boundAt 2).bound = true) ∧
    (∀ code ∈ [(0 : Byte), 1, 4, 6, 8, 255], CdcInv { two with deviceDestination := code } ∧ (refillPass two).occupancy ≠ 0 ∧
      two.bound = false ∧ code ≠ 2 ∧ code ≠ 3 ∧ code ≠ 5 ∧ code ≠ 7) ∧
    (∀ code ∈ [(2 : Byte), 3, 5, 7], CdcInv { two with deviceDestination := code } ∧ (code = 2 ∨ code = 3 ∨ code = 5 ∨ code = 7)) :=
  ⟨⟨inv_fresh, rfl⟩, ⟨inv_bound 2 (by decide), by decide, rfl⟩,
    fun code h => ⟨inv_dest inv_two code, by decide, rfl, by revert code; decide⟩, fun code h => ⟨inv_dest inv_two code, by simpa using h⟩⟩
theorem witness_secondBeginReadFails : CdcInv two ∧
    exec .beginread two = .next { boundAt 0 with response := some (.bind (some 0x00007401)) } ∧
    bindSucceeded { boundAt 0 with response := some (.bind (some 0x00007401)) } := ⟨inv_two, rfl, ⟨_, rfl⟩⟩
/-- The other CPU; nothing bound; the cursor at its end; the cursor at its first and last delivering value. -/
theorem witness_readWordDelivers : CdcInv two ∧ CdcInv (boundAt 0) ∧ CdcInv (boundAt 3) ∧ CdcInv (boundAt 4) ∧
    Cpu.main.isSub ≠ two.targetIsSubCpu ∧ Cpu.sub.isSub = two.targetIsSubCpu ∧ two.bound = false ∧ (boundAt 4).bound = true ∧
    (boundAt 4).wordCursor = (boundAt 4).params.wordsPerSector ∧ (boundAt 0).wordCursor < (boundAt 0).params.wordsPerSector ∧
    (boundAt 3).wordCursor < (boundAt 3).params.wordsPerSector :=
  ⟨inv_two, inv_bound 0 (by decide), inv_bound 3 (by decide), inv_bound 4 (by decide), by decide, by decide, rfl, rfl, by decide, by decide, by decide⟩
theorem witness_ackReleasesTheOldestSlot : (CdcInv two ∧ two.bound = false) ∧ (CdcInv (boundAt 4) ∧ (boundAt 4).bound = true) ∧
    exec .ack (boundAt 4) = .next { two with readIndex := 1, occupancy := 1, wordCursor := 4, response := some .done } ∧
    Instr.ack ≠ .init ∧ 1 < (boundAt 4).occupancy :=
  ⟨⟨inv_two, rfl⟩, ⟨inv_bound 4 (by decide), rfl⟩, rfl, by decide, by decide⟩
/-- Every row of the table: the operations that leave the transfer alone by one of them, `INIT`, `ACK` bound and not, the reads of
`witness_readWordDelivers`, and the binds: busy, invalid, successful. -/
theorem witness_transferTransitions :
    exec .stop two = .next { two with response := some .done } ∧
    exec .init (boundAt 3) = .next { fresh with slots := two.slots, source := ⟨ts, 2⟩, response := some .done } ∧
    exec .ack (boundAt 4) = .next { two with readIndex := 1, occupancy := 1, wordCursor := 4, response := some .done } ∧
    exec .ack two = .next { two with response := some .done } ∧
    exec (.readword .main) (boundAt 1) = .next { boundAt 1 with response := some (.word 0) } ∧
    exec (.readword .sub) (boundAt 2) = .next { boundAt 3 with response := some (.word 0x1011) } ∧
    exec (.readword .sub) (boundAt 4) = .next { boundAt 4 with response := some (.word 0x1213) } ∧
    exec .beginread (boundAt 2) = .next { boundAt 2 with response := some (.bind none) } ∧
    exec .beginread { two with deviceDestination := 4 } = .next { two with deviceDestination := 4, response := some (.bind none), diagLog := [4] } ∧
    exec .beginread two = .next { boundAt 0 with response := some (.bind (some 0x00007401)) } ∧ targetOfCode two.deviceDestination = some true ∧
    CdcInv two ∧ CdcInv { two with deviceDestination := 4 } ∧ targetOfCode 4 = none :=
  ⟨rfl, rfl, rfl, rfl, rfl, rfl, rfl, rfl, rfl, rfl, rfl, inv_two, inv_dest inv_two 4, rfl⟩
theorem witness_cursorNeverMovesBack : CdcInv (boundAt 3) ∧
    exec (.readword .sub) (boundAt 3) = .next { boundAt 4 with response := some (.word 0x1213) } ∧
    ¬ (Instr.readword .sub = .beginread ∧ bindSucceeded { boundAt 4 with response := some (.word 0x1213) }) :=
  ⟨inv_bound 3 (by decide), rfl, fun h => by cases h.1⟩
/-- A bind; then reads by the target among operations that do not end the transfer. -/
theorem witness_transferDeliversInOrder : CdcInv two ∧
    exec .beginread two = .next { boundAt 0 with response := some (.bind (some 0x00007401)) } ∧
    CdcInv (boundAt 0) ∧ (boundAt 0).bound = true ∧
    (∀ i ∈ [Instr.readword .sub, .start, .seek 0 0, .beginread, .readword .main, .setdest 2, .readword .sub], endsTransfer i = false) ∧
    Cpu.sub.isSub = (boundAt 0).targetIsSubCpu := ⟨inv_two, rfl, inv_bound 0 (by decide), rfl, by decide, rfl⟩
theorem witness_drainReadsTheOldestSector : CdcInv two ∧ two.bound = false ∧ two.occupancy + refillCount two ≠ 0 ∧
    targetOfCode two.deviceDestination = some Cpu.sub.isSub := ⟨inv_two, rfl, by decide, rfl⟩
/-- Two states that differ in the secret: one unbound, one in the middle of a transfer. -/
theorem witness_otherCpuLearnsNothing : two.targetIsSubCpu = (boundAt 2).targetIsSubCpu ∧ Cpu.main.isSub ≠ two.targetIsSubCpu ∧
    two ≠ boundAt 2 := ⟨rfl, by decide, by decide⟩
/-- The cursor below and at its last value. -/
theorem witness_earlyAckLeavesStaleFlags : CdcInv (boundAt 1) ∧ CdcInv (boundAt 3) ∧ (boundAt 3).bound = true ∧
    (boundAt 3).wordCursor < (boundAt 3).params.wordsPerSector ∧ (boundAt 3).wordCursor = (boundAt 3).params.wordsPerSector - 1 ∧
    Cpu.sub.isSub = (boundAt 3).targetIsSubCpu :=
  ⟨inv_bound 1 (by decide), inv_bound 3 (by decide), rfl, by decide, by decide, rfl⟩

theorem witness_diagnosticsOnlyForInvalidCodes :
    exec .beginread { two with deviceDestination := 4 } = .next { two with deviceDestination := 4, response := some (.bind none), diagLog := [4] } ∧
    exec .beginread { fresh with deviceDestination := 4 } = .next { fresh with deviceDestination := 4, response := some (.bind none) } := ⟨rfl, rfl⟩
/-- Each case of each operation: an empty ring with an invalid code, a bound transfer with one, an invalid code alone; the other CPU
while nothing is bound, the target while nothing is bound, the target while bound. -/
theorem witness_conditionsHaveAnOrder : ({ fresh with deviceDestination := 4 } : State).occupancy = 0 ∧
    ({ boundAt 2 with deviceDestination := 4 } : State).occupancy ≠ 0 ∧ ({ boundAt 2 with deviceDestination := 4 } : State).bound = true ∧
    ({ two with deviceDestination := 4 } : State).occupancy ≠ 0 ∧ two.bound = false ∧ targetOfCode 4 = none ∧
    Cpu.main.isSub ≠ two.targetIsSubCpu ∧ Cpu.sub.isSub = two.targetIsSubCpu ∧ (boundAt 2).bound = true ∧
    exec .beginread (boundAt 2) = .next { boundAt 2 with response := some (.bind none) } ∧
    CdcInv two ∧ readCheck .sub two ≠ none ∧ CdcInv (boundAt 4) ∧ readCheck .sub (boundAt 4) = none :=
  ⟨rfl, by decide, rfl, by decide, rfl, rfl, by decide, rfl, rfl, rfl, inv_two, by decide, inv_bound 4 (by decide), rfl⟩
/-- An operation that changes each field named. -/
theorem witness_onlyTheListedOperationsWriteAField :
    exec (.setdest 4) two = .next { two with deviceDestination := 4, response := some .done } ∧ (4 : Byte) ≠ two.deviceDestination ∧
    exec (.setdma 0x2345) two = .next { two with dmaAddress := 0x2345, response := some .done } ∧ (0x2345 : Word) ≠ two.dmaAddress ∧
    exec .init (boundAt 3) = .next { fresh with slots := two.slots, source := ⟨ts, 2⟩, response := some .done } ∧
    fresh.wordCursor ≠ (boundAt 3).wordCursor ∧ fresh.bound ≠ (boundAt 3).bound ∧ fresh.occupancy < (boundAt 3).occupancy ∧
    exec .start two = .next { full with reading := true, response := some .done } ∧ full.writeIndex ≠ two.writeIndex ∧
    full.slots ≠ two.slots ∧ full.occupancy > two.occupancy ∧
    exec .beginread { two with deviceDestination := 2 } =
      .next { boundAt 0 with deviceDestination := 2, targetIsSubCpu := false, response := some (.bind (some 0x00007401)) } ∧
    false ≠ two.targetIsSubCpu :=
  ⟨rfl, by decide, rfl, by decide, rfl, by decide, by decide, by decide, rfl, by decide, by decide, by decide, rfl, by decide⟩

end Sys2Proof.Tests
end

