-- ==== Sys2Proof/Proofs/Scope.lean ====
section
/-! PROOFS. What a step does with the operations to come (spec/00_scope.md R8, R9): the equations of `fetchCommand` and of `step`, and the obligation about them. -/

namespace Sys2Proof.Machine

/-! ### Taking the next operation -/

theorem fetchCommand_of_commands_nil {s : State} (h : s.commands = []) : fetchCommand s = none := by
  simp [fetchCommand, h]

theorem fetchCommand_of_commands_cons {s : State} {w : CommandWord} {ws : List CommandWord} (h : s.commands = w :: ws) :
    fetchCommand s = some (w, s.setCommands ws) := by
  simp [fetchCommand, h]

/-- The word put in front is the one taken, and taking it leaves the state it was put into. -/
@[simp] theorem fetchCommand_issueFirst (w : CommandWord) (s : State) : fetchCommand (issueFirst w s) = some (w, s) :=
  fetchCommand_of_commands_cons (State.setCommands_commands s (w :: s.commands))

/-! ### The step -/

theorem step_of_fetchCommand_none {s : State} (h : fetchCommand s = none) : step s = .refused .noOperation := by
  simp [step, h]

theorem step_of_decode_ok {s t : State} {w : CommandWord} {i : Instr} (hf : fetchCommand s = some (w, t))
    (hd : decode w = .ok i) : step s = exec i t := by
  simp [step, hf, hd]

end Sys2Proof.Machine

namespace Sys2Proof.Proofs
open Sys2Proof Sys2Proof.Machine

/-- Settles O7: a step is `exec` of what the fetched word decodes to, for the oldest word to come as for one put in front of it. -/
theorem stepRunsTheDecodedOperation : Obligations.StepRunsTheDecodedOperation := by
  unfold Obligations.StepRunsTheDecodedOperation
  refine ⟨fun s w ws i hc hd => ?oldest, fun s nbits w i hd => ?issued, fun s hc => ?none⟩
  case oldest => exact step_of_decode_ok (fetchCommand_of_commands_cons hc) hd
  case issued => exact step_of_decode_ok (fetchCommand_issueFirst _ s) hd
  case none => exact step_of_fetchCommand_none (fetchCommand_of_commands_nil hc)

end Sys2Proof.Proofs
end

section
/-! PROOFS. The state and its invariants (spec/10_state.md R34, R35, R40 to R46): what any operation that answers a next state can do
(`Performs`), that all of it keeps `CdcInv`, which operations write which field, and the obligations about them. -/

namespace Sys2Proof.Machine

/-! ### Every way an operation can end -/

/-- `Performs s i t`: operation `i` can take `s` to `t`. One constructor per operation and outcome, with the checks that lead to the
outcome; the writes are those of the shared operations. -/
inductive Performs (s : State) : Instr → State → Prop
  | init : Performs s .init (s.resetRecord.answer .done)
  | start : Performs s .start ((refillPass (s.setReading true)).answer .done)
  | stop : Performs s .stop ((s.setReading false).answer .done)
  | poll : Performs s .poll ((refillPass s).answer (.ready (decide (0 < (refillPass s).occupancy))))
  | bindBusy (busy : (refillPass s).occupancy = 0 ∨ s.bound = true) : Performs s .beginread ((refillPass s).answer (.bind none))
  | bindInvalid (nonempty : (refillPass s).occupancy ≠ 0) (free : s.bound = false) (code : targetOfCode s.deviceDestination = none) :
      Performs s .beginread (((refillPass s).emitDiag s.deviceDestination).answer (.bind none))
  | bindOldest (target : Bool) (nonempty : (refillPass s).occupancy ≠ 0) (free : s.bound = false)
      (code : targetOfCode s.deviceDestination = some target) :
      Performs s .beginread (((refillPass s).bindOldest target).answer (.bind (some (oldestHeader (refillPass s)))))
  | readSentinel (cpu : Cpu) (unread : cpu.isSub ≠ s.targetIsSubCpu ∨ s.bound = false) :
      Performs s (.readword cpu) (s.answer (.word 0))
  | readRepeat (cpu : Cpu) (target : cpu.isSub = s.targetIsSubCpu) (bound : s.bound = true)
      (cursor : s.wordCursor = s.params.wordsPerSector) :
      Performs s (.readword cpu) (s.answer (.word (slotWord s s.boundSlotIndex (s.params.wordsPerSector - 1))))
  | readNext (cpu : Cpu) (target : cpu.isSub = s.targetIsSubCpu) (bound : s.bound = true)
      (cursor : s.wordCursor ≠ s.params.wordsPerSector) :
      Performs s (.readword cpu) (s.advanceCursor.answer (.word (slotWord s s.boundSlotIndex s.wordCursor)))
  | ackUnbound (free : s.bound = false) : Performs s .ack (s.answer .done)
  | ackRelease (bound : s.bound = true) (nonempty : 0 < s.occupancy) (oldest : s.boundSlotIndex = s.readIndex) :
      Performs s .ack (s.unbind.releaseOldest.answer .done)
  | seek (a b : SectorWord) : Performs s (.seek a b) ((refillPass (s.setPosition a b)).answer .done)
  | mode (cpu : Cpu) : Performs s (.mode cpu) (s.answer (.word (modeValue cpu s)))
  | setdest (code : Byte) : Performs s (.setdest code) ((s.setDestination code).answer .done)
  | setdma (addr : Word) : Performs s (.setdma addr) ((s.setDmaAddress addr).answer .done)

theorem performs_of_execBeginread {s t : State} (h : execBeginread s = .next t) : Performs s .beginread t := by
  rcases bindOrFail_cases (refillPass s) with ⟨busy, e⟩ | ⟨nonempty, free, code, e⟩ | ⟨nonempty, free, target, code, e⟩ <;>
    rw [execBeginread, e] at h <;> cases h
  · exact .bindBusy (by simpa using busy)
  · exact refillPass_deviceDestination s ▸ .bindInvalid nonempty (by simpa using free) (by simpa using code)
  · exact .bindOldest target nonempty (by simpa using free) (by simpa using code)

theorem performs_of_execReadword {cpu : Cpu} {s t : State} (h : execReadword cpu s = .next t) : Performs s (.readword cpu) t := by
  rcases execReadword_cases cpu s with ⟨unread, e⟩ | ⟨target, bound, cursor, e⟩ | ⟨target, bound, cursor, e⟩ <;>
    rw [e] at h <;> cases h
  · exact .readSentinel cpu unread
  · exact .readRepeat cpu target bound cursor
  · exact .readNext cpu target bound cursor

theorem performs_of_execAck {s t : State} (h : execAck s = .next t) : Performs s .ack t := by
  rcases execAck_cases s with ⟨free, e⟩ | ⟨bound, ⟨nonempty, oldest⟩, e⟩ | ⟨-, -, e⟩ <;> rw [e] at h <;> cases h
  · exact .ackUnbound free
  · exact .ackRelease bound nonempty oldest

/-- The inversion lemma of `exec`: what an operation that answers a next state has done. -/
theorem performs_of_exec {i : Instr} {s t : State} (h : exec i s = .next t) : Performs s i t := by
  cases i with
  | init => exact respond_next h ▸ .init
  | start => exact respond_next h ▸ .start
  | stop => exact respond_next h ▸ .stop
  | poll => exact respond_next h ▸ .poll
  | beginread => exact performs_of_execBeginread h
  | readword cpu => exact performs_of_execReadword h
  | ack => exact performs_of_execAck h
  | seek a b => exact respond_next h ▸ .seek a b
  | mode cpu => exact respond_next h ▸ .mode cpu
  | setdest code => exact respond_next h ▸ .setdest code
  | setdma addr => exact respond_next h ▸ .setdma addr

/-- A step that answers a next state has taken the oldest operation to come and performed it. -/
theorem exec_of_step {s t : State} (h : step s = .next t) :
    ∃ w ws i, s.commands = w :: ws ∧ decode w = .ok i ∧ exec i (s.setCommands ws) = .next t := by
  cases hc : s.commands with
  | nil => rw [step_of_fetchCommand_none (fetchCommand_of_commands_nil hc)] at h; cases h
  | cons w ws =>
    have hf := fetchCommand_of_commands_cons hc
    cases hd : decode w with
    | ok i => exact ⟨w, ws, i, rfl, hd, step_of_decode_ok hf hd ▸ h⟩
    | error e => cases e; simp [step, hf, hd] at h

/-! ### The writes keep the invariants (R40 to R45) -/

namespace CdcInv
variable {s : State}

/-- The invariants speak of no other field than the ring's, the bound slot's, the cursor and the parameters. -/
theorem writeOthers (h : CdcInv s) (sector remaining : SectorWord) (reading target : Bool) (dest : Byte) (dma : Word)
    (source : SectorSource) (commands : List CommandWord) (response : Option Response) (log : List Byte) :
    CdcInv { s with
      currentSector := sector, sectorsRemaining := remaining, reading := reading, targetIsSubCpu := target, deviceDestination := dest,
      dmaAddress := dma, source := source, commands := commands, response := response, diagLog := log } :=
  ⟨h.params, h.occupancy, h.ring, h.cursor, h.bound, h.readIndex, h.boundSlot, h.written, h.canonical, h.inStore⟩

theorem answer (h : CdcInv s) (r : Response) : CdcInv (s.answer r) := h.writeOthers ..
theorem setReading (h : CdcInv s) (b : Bool) : CdcInv (s.setReading b) := h.writeOthers ..
theorem setPosition (h : CdcInv s) (a b : SectorWord) : CdcInv (s.setPosition a b) := h.writeOthers ..
theorem setDestination (h : CdcInv s) (code : Byte) : CdcInv (s.setDestination code) := h.writeOthers ..
theorem setDmaAddress (h : CdcInv s) (addr : Word) : CdcInv (s.setDmaAddress addr) := h.writeOthers ..
theorem emitDiag (h : CdcInv s) (c : Byte) : CdcInv (s.emitDiag c) := h.writeOthers ..
theorem setCommands (h : CdcInv s) (ws : List CommandWord) : CdcInv (s.setCommands ws) := h.writeOthers ..

/-- The reset record meets the invariants whatever the record was: an empty ring has nothing to be bound or written (R46). -/
theorem resetRecord (hp : s.params.wf = true) (hwf : s.slots.wf = true)
    (hin : ∀ c ∈ s.slots, c.1 < s.params.capacity * s.params.wordsPerSector) : CdcInv s.resetRecord where
  params := hp
  occupancy := Nat.zero_le _
  ring := (Nat.zero_mod _).symm
  cursor := Nat.le_refl _
  bound := by simp
  readIndex := ((Params.wf_iff _).1 hp).1
  boundSlot := ((Params.wf_iff _).1 hp).1
  written := fun _ hi => absurd hi (Nat.not_lt_zero _)
  canonical := hwf
  inStore := hin

/-- A successful bind needs a sector in the ring (R43, R122). -/
theorem bindOldest (h : CdcInv s) (target : Bool) (nonempty : s.occupancy ≠ 0) : CdcInv (s.bindOldest target) :=
  { h.writeOthers s.currentSector s.sectorsRemaining s.reading target s.deviceDestination s.dmaAddress s.source s.commands s.response
      s.diagLog with
    cursor := Nat.zero_le _
    bound := fun _ => ⟨rfl, Nat.pos_of_ne_zero nonempty⟩
    boundSlot := h.readIndex }

/-- The cursor stops at `WORDS_PER_SECTOR` (R42, R125). -/
theorem advanceCursor (h : CdcInv s) (cursor : s.wordCursor ≠ s.params.wordsPerSector) : CdcInv s.advanceCursor :=
  ⟨h.params, h.occupancy, h.ring, Nat.lt_of_le_of_ne h.cursor cursor, h.bound, h.readIndex, h.boundSlot, h.written, h.canonical,
    h.inStore⟩

end CdcInv

/-- Every way an operation can end keeps the invariants. -/
theorem Performs.inv {i : Instr} {s t : State} (p : Performs s i t) (h : CdcInv s) : CdcInv t := by
  cases p with
  | init => exact (CdcInv.resetRecord h.params h.canonical h.inStore).answer _
  | start => exact (h.setReading true).refillPass.answer _
  | stop => exact (h.setReading false).answer _
  | poll | bindBusy => exact h.refillPass.answer _
  | bindInvalid => exact (h.refillPass.emitDiag _).answer _
  | bindOldest target nonempty => exact (h.refillPass.bindOldest target nonempty).answer _
  | readSentinel | readRepeat | mode | ackUnbound => exact h.answer _
  | readNext _ _ _ cursor => exact (h.advanceCursor cursor).answer _
  | ackRelease _ nonempty => exact (h.releaseOldest nonempty).answer _
  | seek a b => exact (h.setPosition a b).refillPass.answer _
  | setdest code => exact (h.setDestination code).answer _
  | setdma addr => exact (h.setDmaAddress addr).answer _

/-- The reset state is the reset record over an empty slot store, so it meets the invariants (R46). -/
theorem cdcInv_resetOf {p : Params} (hp : p.wf = true) : CdcInv (State.resetOf p) :=
  CdcInv.resetRecord (s := State.resetOf p) hp rfl (by simp [State.resetOf])

end Sys2Proof.Machine

namespace Sys2Proof.Proofs
open Sys2Proof Sys2Proof.Machine

/-- Settles O12: the reset state is the record `INIT` leaves, and its fields have the stated values by definition. -/
theorem resetMeetsTheInvariants : Obligations.ResetMeetsTheInvariants :=
  ⟨fun _ hp => cdcInv_resetOf hp, cdcInv_resetOf (by decide),
    fun _ => ⟨rfl, rfl, rfl, rfl, rfl, rfl, rfl, rfl, rfl, rfl, rfl, rfl, rfl⟩⟩

/-- Settles O13: every way an operation can end keeps the invariants, and a step is an operation on the state with its command word
taken. -/
theorem everyOperationKeepsTheInvariants : Obligations.EveryOperationKeepsTheInvariants := by
  unfold Obligations.EveryOperationKeepsTheInvariants
  refine ⟨fun s i t hs he => (performs_of_exec he).inv hs, fun s t hs he => ?_⟩
  obtain ⟨_, ws, i, -, -, he⟩ := exec_of_step he
  exact (performs_of_exec he).inv (hs.setCommands ws)

end Sys2Proof.Proofs

namespace Sys2Proof.Machine

/-! ### Which operations write which field (R34) -/

@[simp] theorem bindSucceeded_answer (s : State) (r : Response) : bindSucceeded (s.answer r) ↔ ∃ h, r = .bind (some h) := by
  simp [bindSucceeded]

/-- A pass does not move the drain side of the ring: it only adds sectors. -/
theorem refillPass_drainSide (s : State) :
    ¬ ((refillPass s).readIndex ≠ s.readIndex ∨ (refillPass s).occupancy < s.occupancy) := by
  have := le_refillPass_occupancy s
  simp
  omega

namespace Performs
variable {i : Instr} {s t : State}

theorem params (p : Performs s i t) : t.params = s.params := by cases p <;> simp
theorem commands (p : Performs s i t) : t.commands = s.commands := by cases p <;> simp
theorem script (p : Performs s i t) : t.source.script = s.source.script := by cases p <;> simp

theorem writes_deviceDestination (p : Performs s i t) (hne : t.deviceDestination ≠ s.deviceDestination) :
    i = .init ∨ ∃ code, i = .setdest code := by
  cases p with
  | init => exact .inl rfl
  | setdest code => exact .inr ⟨code, rfl⟩
  | _ => simp at hne

theorem writes_dmaAddress (p : Performs s i t) (hne : t.dmaAddress ≠ s.dmaAddress) : i = .init ∨ ∃ addr, i = .setdma addr := by
  cases p with
  | init => exact .inl rfl
  | setdma addr => exact .inr ⟨addr, rfl⟩
  | _ => simp at hne

theorem writes_target (p : Performs s i t) (hne : t.targetIsSubCpu ≠ s.targetIsSubCpu ∨ t.boundSlotIndex ≠ s.boundSlotIndex) :
    i = .init ∨ (i = .beginread ∧ bindSucceeded t) := by
  cases p with
  | init => exact .inl rfl
  | bindOldest => exact .inr ⟨rfl, _, rfl⟩
  | _ => simp at hne

theorem writes_bound (p : Performs s i t) (hne : t.bound ≠ s.bound) :
    i = .init ∨ i = .ack ∨ (i = .beginread ∧ bindSucceeded t) := by
  cases p with
  | init => exact .inl rfl
  | ackRelease => exact .inr (.inl rfl)
  | bindOldest => exact .inr (.inr ⟨rfl, _, rfl⟩)
  | _ => simp at hne

theorem writes_drainSide (p : Performs s i t) (hne : t.readIndex ≠ s.readIndex ∨ t.occupancy < s.occupancy) :
    i = .init ∨ i = .ack := by
  cases p with
  | init => exact .inl rfl
  | ackUnbound | ackRelease => exact .inr rfl
  | start => exact absurd hne (refillPass_drainSide (s.setReading true))
  | seek a b => exact absurd hne (refillPass_drainSide (s.setPosition a b))
  | poll | bindBusy | bindInvalid | bindOldest => exact absurd hne (refillPass_drainSide s)
  | _ => simp at hne

theorem writes_position (p : Performs s i t)
    (hne : t.writeIndex ≠ s.writeIndex ∨ t.currentSector ≠ s.currentSector ∨ t.sectorsRemaining ≠ s.sectorsRemaining) :
    i = .init ∨ refills i = true := by
  cases p with
  | init => exact .inl rfl
  | start | poll | bindBusy | bindInvalid | bindOldest | seek => exact .inr rfl
  | _ => simp at hne

theorem writes_reading (p : Performs s i t) (hne : t.reading ≠ s.reading) : i = .init ∨ i = .stop ∨ refills i = true := by
  cases p with
  | init => exact .inl rfl
  | stop => exact .inr (.inl rfl)
  | start | poll | bindBusy | bindInvalid | bindOldest | seek => exact .inr (.inr rfl)
  | _ => simp at hne

theorem writes_fillSide (p : Performs s i t) (hne : t.slots ≠ s.slots ∨ t.source ≠ s.source ∨ t.occupancy > s.occupancy) :
    refills i = true := by
  cases p with
  | start | poll | bindBusy | bindInvalid | bindOldest | seek => rfl
  | ackRelease => exact absurd hne (by simp)
  | _ => simp at hne

/-- What each operation does to the cursor (R42): the four cases exclude each other. -/
theorem wordCursor_cases (p : Performs s i t) :
    (i = .init ∧ t.wordCursor = s.params.wordsPerSector) ∨
    (i = .beginread ∧ bindSucceeded t ∧ t.wordCursor = 0) ∨
    ((∃ cpu, i = .readword cpu) ∧ s.wordCursor ≠ s.params.wordsPerSector ∧ t.wordCursor = s.wordCursor + 1) ∨
    (i ≠ .init ∧ ¬ (i = .beginread ∧ bindSucceeded t) ∧ t.wordCursor = s.wordCursor) := by
  cases p with
  | init => exact .inl ⟨rfl, rfl⟩
  | bindOldest => exact .inr (.inl ⟨rfl, ⟨_, rfl⟩, rfl⟩)
  | readNext cpu _ _ cursor => exact .inr (.inr (.inl ⟨⟨cpu, rfl⟩, cursor, rfl⟩))
  | _ => exact .inr (.inr (.inr (by simp)))

end Performs

/-! ### The flags are functions of the cursor (R35) -/

theorem edt_eq (s : State) : edt s = decide (s.params.wordsPerSector - 1 ≤ s.wordCursor) := rfl
theorem dsr_eq (s : State) : dsr s = decide (s.wordCursor ≠ s.params.wordsPerSector) := rfl

theorem flags_congr {s t : State} (hp : t.params = s.params) (hc : t.wordCursor = s.wordCursor) : edt t = edt s ∧ dsr t = dsr s := by
  simp [edt_eq, dsr_eq, hp, hc]

end Sys2Proof.Machine

namespace Sys2Proof.Proofs
open Sys2Proof Sys2Proof.Machine

/-- Settles O26: the cases of the cursor, with the flags of each. -/
theorem flagsFollowTheCursor : Obligations.FlagsFollowTheCursor := by
  unfold Obligations.FlagsFollowTheCursor
  refine ⟨fun s => ⟨rfl, rfl⟩, fun s i t hs he => ?_⟩
  have p := performs_of_exec he
  have hW := Params.three_le_wordsPerSector hs.params
  have same := flags_congr (s := s) p.params
  rcases p.wordCursor_cases with ⟨rfl, hc⟩ | ⟨rfl, -, hc⟩ | ⟨⟨cpu, rfl⟩, -, hc⟩ | ⟨hi, hb, hc⟩
  · refine ⟨nofun, fun _ => ?_, nofun, same, nofun⟩
    simp [edt_eq, dsr_eq, p.params, hc]
  · refine ⟨fun _ _ => ?_, nofun, nofun, same, nofun⟩
    simp [edt_eq, dsr_eq, p.params, hc]
    omega
  · refine ⟨nofun, nofun, fun _ _ _ => ?_, same, nofun⟩
    simp [edt_eq, dsr_eq, p.params, hc]
  · exact ⟨fun h h' => absurd ⟨h, h'⟩ hb, fun h => absurd h hi, fun _ _ h => absurd hc h, same, fun _ => same hc⟩

/-- Settles O43: the range is an invariant, and of the cases of the cursor only the bind's moves it back. -/
theorem cursorNeverMovesBack : Obligations.CursorNeverMovesBack := by
  unfold Obligations.CursorNeverMovesBack
  intro s i t hs he
  have p := performs_of_exec he
  refine ⟨(p.inv hs).cursor, fun hb => ?_⟩
  have range := hs.cursor
  rcases p.wordCursor_cases with ⟨-, hc⟩ | ⟨hi, hs, -⟩ | ⟨-, -, hc⟩ | ⟨-, -, hc⟩
  · omega
  · exact absurd ⟨hi, hs⟩ hb
  · omega
  · omega

/-- Settles O50: the parts are the lemmas of the fields; the cursor's is read off its cases. -/
theorem onlyTheListedOperationsWriteAField : Obligations.OnlyTheListedOperationsWriteAField := by
  unfold Obligations.OnlyTheListedOperationsWriteAField
  intro s i t he
  have p := performs_of_exec he
  refine ⟨p.params, p.commands, p.script, p.writes_deviceDestination, p.writes_dmaAddress, p.writes_target, fun hne => ?cursor,
    p.writes_bound, p.writes_drainSide, p.writes_position, p.writes_reading, p.writes_fillSide⟩
  case cursor =>
    rcases p.wordCursor_cases with ⟨hi, -⟩ | ⟨hi, hb, -⟩ | ⟨hi, -, -⟩ | ⟨-, -, hc⟩
    · exact .inl hi
    · exact .inr (.inl ⟨hi, hb⟩)
    · exact .inr (.inr hi)
    · exact absurd hc hne

end Sys2Proof.Proofs
end

section
/-! PROOFS. The slot store (spec/20_memory.md R52 to R55, R65): the two byte orders as numbers and as fields, what the slots hold after
an operation that runs a refill pass, and the obligations about them. -/

namespace Sys2Proof.Machine

/-! ### Bytes and words (R53 to R55) -/

@[simp] theorem bigEndian_toNat (hi lo : Byte) : (bigEndian hi lo).toNat = 256 * hi.toNat + lo.toNat := by
  rw [bigEndian, BitVec.toNat_append, ← Nat.shiftLeft_add_eq_or_of_lt lo.isLt, Nat.shiftLeft_eq, Nat.mul_comm]

@[simp] theorem bigEndian_highByte (hi lo : Byte) : (bigEndian hi lo).extractLsb' 8 8 = hi := BitVec.extractLsb'_append_eq_left

@[simp] theorem bigEndian_lowByte (hi lo : Byte) : (bigEndian hi lo).extractLsb' 0 8 = lo := BitVec.extractLsb'_append_eq_right

/-- A byte of the upper half of the header is a byte of word 0. -/
theorem header32_extract_upper (word0 word1 : Word) (start : Nat) :
    (header32 word0 word1).extractLsb' (16 + start) 8 = word0.extractLsb' start 8 := by
  rw [header32, BitVec.extractLsb'_append_eq_of_le (by omega), Nat.add_sub_cancel_left]

/-- A byte of the lower half of the header is a byte of word 1. -/
theorem header32_extract_lower (word0 word1 : Word) {start : Nat} (h : start + 8 ≤ 16) :
    (header32 word0 word1).extractLsb' start 8 = word1.extractLsb' start 8 :=
  BitVec.extractLsb'_append_eq_of_add_le h

/-- A byte the environment has written down is the byte the source answers (R176). -/
theorem sourceByte_of_script {src : SectorSource} {k j : Nat} {answer : List Byte} {b : Byte} (ha : src.script[k]? = some answer)
    (hb : answer[j]? = some b) : sourceByte src k j = b := by
  simp [sourceByte, ha, List.getD, hb]

/-! ### The words of a stored sector (R52, R53) -/

theorem refillWord_zero (s : State) (j : Nat) :
    refillWord s j 0 = headerWord0 (encodeHeader s.params.modeByte (s.currentSector + BitVec.ofNat 32 j)) := rfl

theorem refillWord_one (s : State) (j : Nat) :
    refillWord s j 1 = headerWord1 (encodeHeader s.params.modeByte (s.currentSector + BitVec.ofNat 32 j)) := rfl

theorem refillWord_payload (s : State) (j k : Nat) :
    refillWord s j (2 + k) =
      bigEndian (sourceByte s.source (s.source.calls + j) (2 * k)) (sourceByte s.source (s.source.calls + j) (2 * k + 1)) := by
  simp [refillWord, show 2 + k ≠ 1 by omega]

/-! ### The state a refill pass starts in (R104) -/

section
variable (i : Instr) (s : State)

@[simp] theorem refillStart_params : (refillStart i s).params = s.params := by cases i <;> rfl
@[simp] theorem refillStart_slots : (refillStart i s).slots = s.slots := by cases i <;> rfl
@[simp] theorem refillStart_readIndex : (refillStart i s).readIndex = s.readIndex := by cases i <;> rfl
@[simp] theorem refillStart_writeIndex : (refillStart i s).writeIndex = s.writeIndex := by cases i <;> rfl
@[simp] theorem refillStart_occupancy : (refillStart i s).occupancy = s.occupancy := by cases i <;> rfl
@[simp] theorem refillStart_source : (refillStart i s).source = s.source := by cases i <;> rfl

end

theorem CdcInv.refillStart {s : State} (h : CdcInv s) (i : Instr) : CdcInv (refillStart i s) := by
  cases i with
  | start => exact h.setReading true
  | seek a b => exact h.setPosition a b
  | _ => exact h

/-! ### What an operation leaves in the slots -/

theorem slotWord?_congr {s t : State} (hp : t.params = s.params) (hs : t.slots = s.slots) (slot w : Nat) :
    slotWord? t slot w = slotWord? s slot w := by
  simp [slotWord?, hp, hs]

theorem occupiedSlot_congr {s t : State} (hp : t.params = s.params) (hr : t.readIndex = s.readIndex) (k : Nat) :
    occupiedSlot t k = occupiedSlot s k := by
  simp [occupiedSlot, hp, hr]

namespace Performs
variable {i : Instr} {s t : State}

/-- A refilling operation leaves the slots and the source as one pass from `refillStart` does: what it writes afterwards is
neither. -/
theorem refilled (p : Performs s i t) (hi : refills i = true) :
    t.slots = (refillPass (refillStart i s)).slots ∧ t.source = (refillPass (refillStart i s)).source := by
  cases p with
  | start | seek | poll | bindBusy | bindInvalid | bindOldest => exact ⟨rfl, rfl⟩
  | _ => cases hi

theorem slotWord?_refilled (p : Performs s i t) (hi : refills i = true) (slot w : Nat) :
    slotWord? t slot w = slotWord? (refillPass (refillStart i s)) slot w :=
  slotWord?_congr (by simp [p.params]) (p.refilled hi).1 slot w

/-- R104, R109: one call of the source per sector the pass stores. -/
theorem calls_refilled (p : Performs s i t) (hs : CdcInv s) (hi : refills i = true) :
    t.source.calls = s.source.calls + refillCount (refillStart i s) := by
  rw [(p.refilled hi).2, (hs.refillStart i).afterRefill.calls, refillStart_source]

/-- R102: every word of the `j`-th slot a refilling operation writes. -/
theorem slotWord?_stored (p : Performs s i t) (hs : CdcInv s) (hi : refills i = true) {j : Nat}
    (hj : j < refillCount (refillStart i s)) {w : Nat} (hw : w < s.params.wordsPerSector) :
    slotWord? t ((s.writeIndex + j) % s.params.capacity) w = some (refillWord (refillStart i s) j w) := by
  have := (hs.refillStart i).afterRefill.stored j hj w (by simpa using hw)
  rwa [← p.slotWord?_refilled hi, refillStart_writeIndex, refillStart_params] at this

/-- R52: the header words of the `j`-th slot a refilling operation writes are those of `current_sector + j`. -/
theorem headerWords_stored (p : Performs s i t) (hs : CdcInv s) (hi : refills i = true) {j : Nat}
    (hj : j < refillCount (refillStart i s)) :
    let slot := (s.writeIndex + j) % s.params.capacity
    let h := encodeHeader s.params.modeByte ((refillStart i s).currentSector + BitVec.ofNat 32 j)
    slotWord? t slot 0 = some (headerWord0 h) ∧ slotWord? t slot 1 = some (headerWord1 h) := by
  have hW := Params.three_le_wordsPerSector hs.params
  have word0 := p.slotWord?_stored hs hi hj (w := 0) (by omega)
  have word1 := p.slotWord?_stored hs hi hj (w := 1) (by omega)
  rw [refillWord_zero, refillStart_params] at word0
  rw [refillWord_one, refillStart_params] at word1
  exact ⟨word0, word1⟩

/-- R53: the payload words of the `j`-th slot a refilling operation writes are the byte pairs of the source's `j`-th answer. -/
theorem payloadWord_stored (p : Performs s i t) (hs : CdcInv s) (hi : refills i = true) {j : Nat}
    (hj : j < refillCount (refillStart i s)) {k : Nat} (hk : k < s.params.payloadWords) :
    slotWord? t ((s.writeIndex + j) % s.params.capacity) (2 + k) =
      some (bigEndian (sourceByte s.source (s.source.calls + j) (2 * k)) (sourceByte s.source (s.source.calls + j) (2 * k + 1))) := by
  have hw : 2 + k < s.params.wordsPerSector := Nat.add_lt_add_left hk 2
  rw [p.slotWord?_stored hs hi hj hw, refillWord_payload, refillStart_source]

/-- R45 (a): an occupied slot keeps its words, under a pass because the pass fills free slots only, under every other operation
because it writes no slot. -/
theorem slotWord?_occupied (p : Performs s i t) (hs : CdcInv s) {k : Nat} (hk : k < s.occupancy) (w : Nat) :
    slotWord? t (occupiedSlot s k) w = slotWord? s (occupiedSlot s k) w := by
  by_cases hi : refills i = true
  · have spared := (hs.refillStart i).refill_spares_occupied (i := k) (by simpa using hk) w
    rw [occupiedSlot_congr (refillStart_params i s) (refillStart_readIndex i s)] at spared
    rw [p.slotWord?_refilled hi, spared, slotWord?_congr (refillStart_params i s) (refillStart_slots i s)]
  · have hslots : t.slots = s.slots := by_contra fun hne => hi (p.writes_fillSide (.inl hne))
    exact slotWord?_congr p.params hslots _ w

end Performs

end Sys2Proof.Machine

namespace Sys2Proof.Proofs
open Sys2Proof Sys2Proof.Machine

/-- Settles O11: each half of the header is one of its two words, and each word one pair of bytes. -/
theorem headerReadsMinuteSecondFrameMode : Obligations.HeaderReadsMinuteSecondFrameMode := by
  unfold Obligations.HeaderReadsMinuteSecondFrameMode
  intro modeByte n
  refine ⟨?_, ?_, ?_, ?_⟩ <;> rw [headerOf]
  · exact (header32_extract_upper _ _ 8).trans (bigEndian_highByte _ _)
  · exact (header32_extract_upper _ _ 0).trans (bigEndian_lowByte _ _)
  · exact (header32_extract_lower _ _ (by omega)).trans (bigEndian_highByte _ _)
  · exact (header32_extract_lower _ _ (by omega)).trans (bigEndian_lowByte _ _)

/-- Settles O29: the counts and words of the pass, with the bytes of an answer that is written down in place of the source's. -/
theorem refillStoresTheSourceAnswers : Obligations.RefillStoresTheSourceAnswers := by
  unfold Obligations.RefillStoresTheSourceAnswers
  intro s i t hs hi he
  have p := performs_of_exec he
  refine ⟨p.calls_refilled hs hi, p.script, fun j hj => ?_⟩
  obtain ⟨word0, word1⟩ := p.headerWords_stored hs hi hj
  refine ⟨word0, word1, fun k hk => ⟨_, p.payloadWord_stored hs hi hj hk, bigEndian_toNat _ _, fun answer hi lo ha hhi hlo => ?_⟩⟩
  rw [bigEndian_toNat, sourceByte_of_script ha hhi, sourceByte_of_script ha hlo]

/-- Settles O30: the two header words of the pass, as numbers. -/
theorem refillStoresTheHeader : Obligations.RefillStoresTheHeader := by
  unfold Obligations.RefillStoresTheHeader
  intro s i t hs hi he j hj
  obtain ⟨word0, word1⟩ := (performs_of_exec he).headerWords_stored hs hi hj
  exact ⟨_, _, word0, word1, bigEndian_toNat _ _, bigEndian_toNat _ _⟩

/-- Settles O34: it holds of every way an operation can end, of `INIT` too, which writes no slot word. -/
theorem occupiedSlotsAreNeverOverwritten : Obligations.OccupiedSlotsAreNeverOverwritten := by
  unfold Obligations.OccupiedSlotsAreNeverOverwritten
  intro s i t hs he _ k hk w
  exact (performs_of_exec he).slotWord?_occupied hs hk w

end Sys2Proof.Proofs
end

section
/-! PROOFS. The command word, its listings and the responses (spec/30_encoding.md R70 to R81). `Carries w i` says field by field that
the word `w` holds the operation `i`. The decoder answers exactly the operation a word carries (`decode_eq_ok_iff`), and the used bits
of a word are those of the encoded operation exactly if the word carries it (`and_usedBits_eq_encode_iff`); the obligations about words
follow from these two. -/

namespace Sys2Proof

/-! ### A command word and its fields (R70) -/

@[simp] theorem Cpu.isSub_main : Cpu.main.isSub = false := rfl
@[simp] theorem Cpu.isSub_sub : Cpu.sub.isSub = true := rfl

theorem isSub_cpuField (w : CommandWord) : (cpuField w).isSub = w.getLsbD 67 := by
  cases h : w.getLsbD 67 <;> rw [cpuField, h] <;> rfl

/-- A command word is its five fields, the operation code on top. -/
theorem eq_append_fields (w : CommandWord) :
    w = opField w ++ BitVec.ofBool (cpuField w).isSub ++ rsvField w ++ aField w ++ bField w := by
  have cpu : BitVec.ofBool (cpuField w).isSub = w.extractLsb' 67 1 := by
    ext k hk
    obtain rfl : k = 0 := by omega
    simp [isSub_cpuField]
  rw [cpu, opField, rsvField, aField, bField,
    BitVec.extractLsb'_append_extractLsb'_eq_extractLsb' (start₂ := 68) (start₁ := 67) rfl,
    BitVec.extractLsb'_append_extractLsb'_eq_extractLsb' (start₂ := 67) (start₁ := 64) rfl,
    BitVec.extractLsb'_append_extractLsb'_eq_extractLsb' (start₂ := 64) (start₁ := 32) rfl,
    BitVec.extractLsb'_append_extractLsb'_eq_extractLsb' (start₂ := 32) (start₁ := 0) rfl]
  exact BitVec.extractLsb'_eq_self.symm

/-- A mask that keeps the operation code and has no reserved bits acts on each operand field by itself. -/
theorem and_packFields_allOnes (w : CommandWord) (cpu : Cpu) (a b : BitVec 32) :
    w &&& packFields (BitVec.allOnes 4) cpu a b =
      packFields (opField w) (if cpu.isSub then cpuField w else .main) (aField w &&& a) (bField w &&& b) := by
  calc w &&& packFields (BitVec.allOnes 4) cpu a b
    _ = (opField w ++ BitVec.ofBool (cpuField w).isSub ++ rsvField w ++ aField w ++ bField w) &&&
          (BitVec.allOnes 4 ++ BitVec.ofBool cpu.isSub ++ (0 : BitVec 3) ++ a ++ b) := congrArg (· &&& _) (eq_append_fields w)
    _ = (opField w &&& BitVec.allOnes 4) ++ (BitVec.ofBool (cpuField w).isSub &&& BitVec.ofBool cpu.isSub) ++
          (rsvField w &&& 0) ++ (aField w &&& a) ++ (bField w &&& b) := by simp only [BitVec.and_append]
    _ = _ := by rw [BitVec.and_allOnes, BitVec.ofBool_and_ofBool]; cases cpu <;> simp [packFields]

@[simp] theorem packFields_inj {op op' : BitVec 4} {cpu cpu' : Cpu} {a a' b b' : BitVec 32} :
    packFields op cpu a b = packFields op' cpu' a' b' ↔ op = op' ∧ cpu = cpu' ∧ a = a' ∧ b = b' := by
  refine ⟨fun h => ⟨?_, ?_, ?_, ?_⟩, fun ⟨ho, hc, ha, hb⟩ => by rw [ho, hc, ha, hb]⟩
  · simpa using congrArg opField h
  · simpa using congrArg cpuField h
  · simpa using congrArg aField h
  · simpa using congrArg bField h

/-! ### The bits an operation uses (R73) -/

/-- The low bits of an operand, kept in place, are the field an operation takes from it. -/
theorem and_lowBits (n : Nat) (a : BitVec 32) :
    a &&& (BitVec.allOnes n).setWidth 32 = (a.extractLsb' 0 n).setWidth 32 := by
  ext k hk
  by_cases hn : k < n <;> simp [hn, BitVec.getLsbD_eq_getElem hk]

theorem setWidth_operand_inj {n : Nat} (h : n ≤ 32) {x y : BitVec n} : x.setWidth 32 = y.setWidth 32 ↔ x = y := by
  refine ⟨fun e => ?_, fun e => by rw [e]⟩
  simpa [BitVec.setWidth_setWidth_of_le _ h] using congrArg (BitVec.setWidth n) e

/-- The mask of the operation code: that of every row of R74 and of the operations without operands. -/
theorem and_opMask (w : CommandWord) : w &&& 0xF00000000000000000 = packFields (opField w) .main 0 0 := by
  rw [show (0xF00000000000000000 : CommandWord) = packFields (BitVec.allOnes 4) .main 0 0 by decide, and_packFields_allOnes]
  simp

theorem and_cpuMask (w : CommandWord) : w &&& 0xF80000000000000000 = packFields (opField w) (cpuField w) 0 0 := by
  rw [show (0xF80000000000000000 : CommandWord) = packFields (BitVec.allOnes 4) .sub 0 0 by decide, and_packFields_allOnes]
  simp

theorem and_operandsMask (w : CommandWord) : w &&& 0xF0FFFFFFFFFFFFFFFF = packFields (opField w) .main (aField w) (bField w) := by
  rw [show (0xF0FFFFFFFFFFFFFFFF : CommandWord) =
    packFields (BitVec.allOnes 4) .main (BitVec.allOnes 32) (BitVec.allOnes 32) by decide, and_packFields_allOnes,
    BitVec.and_allOnes, BitVec.and_allOnes]
  rfl

theorem and_lowByteMask (w : CommandWord) :
    w &&& 0xF0000000FF00000000 = packFields (opField w) .main (((aField w).extractLsb' 0 8).setWidth 32) 0 := by
  rw [show (0xF0000000FF00000000 : CommandWord) =
    packFields (BitVec.allOnes 4) .main ((BitVec.allOnes 8).setWidth 32) 0 by decide, and_packFields_allOnes, and_lowBits]
  simp

theorem and_lowHalfMask (w : CommandWord) :
    w &&& 0xF00000FFFF00000000 = packFields (opField w) .main (((aField w).extractLsb' 0 16).setWidth 32) 0 := by
  rw [show (0xF00000FFFF00000000 : CommandWord) =
    packFields (BitVec.allOnes 4) .main ((BitVec.allOnes 16).setWidth 32) 0 by decide, and_packFields_allOnes, and_lowBits]
  simp

/-! ### The operation a word carries (R72, R74) -/

/-- The word has the operation's code, and the operation's operands in the fields R72 takes them from. -/
def Carries (w : CommandWord) : Instr → Prop
  | .init         => opField w = 0
  | .start        => opField w = 1
  | .stop         => opField w = 2
  | .poll         => opField w = 3
  | .beginread    => opField w = 4
  | .readword cpu => opField w = 5 ∧ cpuField w = cpu
  | .ack          => opField w = 6
  | .seek a b     => opField w = 7 ∧ aField w = a ∧ bField w = b
  | .mode cpu     => opField w = 8 ∧ cpuField w = cpu
  | .setdest code => opField w = 9 ∧ (aField w).extractLsb' 0 8 = code
  | .setdma addr  => opField w = 10 ∧ (aField w).extractLsb' 0 16 = addr

theorem carries_of_decode {w : CommandWord} {i : Instr} (h : decode w = .ok i) : Carries w i := by
  unfold decode at h
  split at h <;> rename_i op <;> cases h
  case h_1 | h_2 | h_3 | h_4 | h_5 | h_7 => exact BitVec.eq_of_toNat_eq op
  case h_6 | h_9 | h_10 | h_11 => exact ⟨BitVec.eq_of_toNat_eq op, rfl⟩
  case h_8 => exact ⟨BitVec.eq_of_toNat_eq op, rfl, rfl⟩

theorem decode_of_carries {w : CommandWord} {i : Instr} (h : Carries w i) : decode w = .ok i := by
  cases i with
  | init | start | stop | poll | beginread | ack =>
    rw [Carries] at h
    simp [decode, h]
  | readword | mode | setdest | setdma =>
    obtain ⟨op, rfl⟩ := h
    simp [decode, op]
  | seek =>
    obtain ⟨op, rfl, rfl⟩ := h
    simp [decode, op]

/-- The decoder answers exactly the operation a word carries. -/
theorem decode_eq_ok_iff {w : CommandWord} {i : Instr} : decode w = .ok i ↔ Carries w i :=
  ⟨carries_of_decode, decode_of_carries⟩

/-- A word carries an operation exactly if its used bits are those of the encoded operation. -/
theorem and_usedBits_eq_encode_iff {w : CommandWord} {i : Instr} : w &&& usedBits i = encode i ↔ Carries w i := by
  cases i with
  | init | start | stop | poll | beginread | ack =>
    rw [usedBits, and_opMask]
    simp [encode, Carries]
  | readword | mode =>
    rw [usedBits, and_cpuMask]
    simp [encode, Carries]
  | seek =>
    rw [usedBits, and_operandsMask]
    simp [encode, Carries]
  | setdest =>
    rw [usedBits, and_lowByteMask]
    simp [encode, Carries, setWidth_operand_inj]
  | setdma =>
    rw [usedBits, and_lowHalfMask]
    simp [encode, Carries, setWidth_operand_inj]

theorem carries_encode (i : Instr) : Carries (encode i) i := by
  cases i with
  | setdest | setdma => simp [Carries, encode, BitVec.extractLsb'_setWidth_of_le]
  | _ => simp [Carries, encode]

@[simp] theorem decode_encode (i : Instr) : decode (encode i) = .ok i := decode_of_carries (carries_encode i)

/-! ### The decoder by the operation code (R74, R75) -/

/-- Exactly the codes from 11 on are refused, by name; every other code is an operation's. -/
theorem decode_cases (w : CommandWord) :
    ((opField w).toNat < 11 ∧ ∃ i, decode w = .ok i) ∨
    (11 ≤ (opField w).toNat ∧ decode w = .error (.reservedOperation (opField w))) := by
  have lt := (opField w).isLt
  unfold decode
  split
  case h_12 =>
    refine .inr ⟨?_, rfl⟩
    simp only [imp_false] at *
    omega
  all_goals exact .inl ⟨by omega, _, rfl⟩

theorem decode_eq_reserved_iff {w : CommandWord} :
    decode w = .error (.reservedOperation (opField w)) ↔ 11 ≤ (opField w).toNat := by
  rcases decode_cases w with ⟨lt, i, e⟩ | ⟨le, e⟩
  · simp [e, lt]
  · simp [e, le]

/-- Two words that carry the same operation have the same operation code. -/
theorem Carries.opField_eq {v w : CommandWord} {i : Instr} (hv : Carries v i) (hw : Carries w i) : opField v = opField w := by
  cases i with
  | init | start | stop | poll | beginread | ack => exact hv.trans hw.symm
  | readword | seek | mode | setdest | setdma => exact hv.1.trans hw.1.symm

/-! ### The rows of the opcode map (R74) -/

theorem encodesInItsRow (i : Instr) : Laws.EncodesInItsRow.Statement i := by
  cases i with
  | init => exact Laws.EncodesInItsRow.init
  | start => exact Laws.EncodesInItsRow.start
  | stop => exact Laws.EncodesInItsRow.stop
  | poll => exact Laws.EncodesInItsRow.poll
  | beginread => exact Laws.EncodesInItsRow.beginread
  | readword cpu => exact Laws.EncodesInItsRow.readword cpu
  | ack => exact Laws.EncodesInItsRow.ack
  | seek a b => exact Laws.EncodesInItsRow.seek a b
  | mode cpu => exact Laws.EncodesInItsRow.mode cpu
  | setdest code => exact Laws.EncodesInItsRow.setdest code
  | setdma addr => exact Laws.EncodesInItsRow.setdma addr

/-- A decoded operation has a row: the row of its mnemonic has the word's code. -/
theorem exists_row_of_decode {w : CommandWord} {i : Instr} (h : decode w = .ok i) :
    ∃ r ∈ opcodeTable, r.mnemonic = i.mnemonic ∧ opField w = r.op := by
  rw [(carries_of_decode h).opField_eq (carries_encode i)]
  exact (encodesInItsRow i).1

theorem row_eq_of_op_eq : ∀ r ∈ opcodeTable, ∀ r' ∈ opcodeTable, r.op = r'.op → r = r' := by decide

theorem row_eq_of_mnemonic_eq : ∀ r ∈ opcodeTable, ∀ r' ∈ opcodeTable, r.mnemonic = r'.mnemonic → r = r' := by decide

theorem row_op_lt : ∀ r ∈ opcodeTable, r.op.toNat < 11 := by decide

theorem row_pattern : ∀ r ∈ opcodeTable, r.mask = 0xF00000000000000000 ∧ r.bits = packFields r.op .main 0 0 := by decide

/-- A word matches a row exactly if it has the row's operation code. -/
theorem matchesWord_iff {r : OpcodeRow} (hr : r ∈ opcodeTable) (w : CommandWord) : r.matchesWord w = true ↔ opField w = r.op := by
  obtain ⟨hmask, hbits⟩ := row_pattern r hr
  rw [OpcodeRow.matchesWord, hmask, hbits, and_opMask]
  simp

/-! ### Listings (R80, R81) -/

/-- The operations a listing line stands for, its numbers cut to the operands' widths. -/
def Listing.operations (p : Params) : Listing → List Instr
  | .init         => [.init]
  | .start        => [.start]
  | .stop         => [.stop]
  | .poll         => [.poll]
  | .beginread    => [.beginread]
  | .readword cpu => [.readword cpu]
  | .ack          => [.ack]
  | .seek a b     => [.seek (BitVec.ofNat 32 a) (BitVec.ofNat 32 b)]
  | .mode cpu     => [.mode cpu]
  | .setdest c    => [.setdest (BitVec.ofNat 8 c)]
  | .setdma a     => [.setdma (BitVec.ofNat 16 a)]
  | .readn cpu n  => List.replicate n (.readword cpu)
  | .drain cpu    => .beginread :: List.replicate p.wordsPerSector (.readword cpu) ++ [.ack]
  | .play s t     => [.seek (BitVec.ofNat 32 s) (BitVec.ofNat 32 t), .start]

theorem extractLsb'_ofNat_operand {n : Nat} (h : n ≤ 32) (c : Nat) : (BitVec.ofNat 32 c).extractLsb' 0 n = BitVec.ofNat n c := by
  rw [← BitVec.setWidth_eq_extractLsb' h, BitVec.setWidth_ofNat_of_le h]

theorem map_decode_map_encode (is : List Instr) : (is.map encode).map decode = is.map .ok := by
  simp [Function.comp_def]

/-- Every line assembles to words that decode to its operations. Only the words of `SETDEST` and `SETDMA` need not be those of
`encode`: the bits of the number above the operand's width stay in the word and are ignored. -/
theorem map_decode_assemble (p : Params) (l : Listing) : (assemble p l).map decode = (l.operations p).map .ok := by
  cases l with
  | setdest c =>
    have carries : Carries (packFields 9 .main (BitVec.ofNat 32 c) 0) (.setdest (BitVec.ofNat 8 c)) := by
      simp [Carries, extractLsb'_ofNat_operand]
    exact congrArg ([·]) (decode_of_carries carries)
  | setdma a =>
    have carries : Carries (packFields 10 .main (BitVec.ofNat 32 a) 0) (.setdma (BitVec.ofNat 16 a)) := by
      simp [Carries, extractLsb'_ofNat_operand]
    exact congrArg ([·]) (decode_of_carries carries)
  | readn | drain =>
    rw [← map_decode_map_encode]
    simp [assemble, Listing.operations, encode]
  | _ =>
    rw [← map_decode_map_encode]
    rfl

theorem toNat_ofNat_of_fitsOperand {n : Nat} (h : fitsOperand n = true) : (BitVec.ofNat 32 n).toNat = n := by
  rw [BitVec.toNat_ofNat, Nat.mod_eq_of_lt (of_decide_eq_true h)]

end Sys2Proof

namespace Sys2Proof.Machine

theorem step_of_decode_reserved {s t : State} {w : CommandWord} {op : BitVec 4} (hf : fetchCommand s = some (w, t))
    (hd : decode w = .error (.reservedOperation op)) : step s = .refused (.reservedOperation op) := by
  simp [step, hf, hd]

/-! ### The packed response word (R76) -/

/-- Bit 32 stands above the 32 bits of the value. -/
theorem packed_flag (flag : Bool) (v : BitVec 32) : (BitVec.ofBool flag ++ v).getLsbD 32 = flag := by
  rw [BitVec.getLsbD_append, if_neg (Nat.lt_irrefl 32)]
  simp

theorem packed_value (flag : BitVec 1) (v : BitVec 32) : (flag ++ v).extractLsb' 0 32 = v := BitVec.extractLsb'_append_eq_right

theorem packed_toNat (v : BitVec 32) : (1#1 ++ v).toNat = 2 ^ 32 + v.toNat := by
  rw [BitVec.toNat_append, ← Nat.shiftLeft_add_eq_or_of_lt v.isLt]
  rfl

end Sys2Proof.Machine

namespace Sys2Proof.Proofs
open Sys2Proof Sys2Proof.Machine

/-- Settles O1: the decoder and the encoder meet in the operation a word carries. -/
theorem decodeEncodeRoundTrip : Obligations.DecodeEncodeRoundTrip := by
  unfold Obligations.DecodeEncodeRoundTrip
  exact ⟨decode_encode, fun w i h => (and_usedBits_eq_encode_iff.2 (decode_eq_ok_iff.1 h)).symm⟩

/-- Settles O2: a word matches the row of its operation code, and the row's code and mnemonic both determine the row. -/
theorem opcodeTableSelectsTheOperation : Obligations.OpcodeTableSelectsTheOperation := by
  unfold Obligations.OpcodeTableSelectsTheOperation
  refine ⟨fun r hr w => ?row, fun w i h => ?unique⟩
  case row =>
    rw [matchesWord_iff hr]
    constructor
    · intro op
      obtain ⟨-, i, h⟩ | ⟨reserved, -⟩ := decode_cases w
      · obtain ⟨r', hr', mnemonic, op'⟩ := exists_row_of_decode h
        rw [row_eq_of_op_eq r hr r' hr' (op.symm.trans op')]
        exact ⟨i, h, mnemonic.symm⟩
      · exact absurd (op ▸ row_op_lt r hr) (Nat.not_lt.2 reserved)
    · rintro ⟨i, h, mnemonic⟩
      obtain ⟨r', hr', mnemonic', op⟩ := exists_row_of_decode h
      rwa [row_eq_of_mnemonic_eq r hr r' hr' (mnemonic.symm.trans mnemonic'.symm)]
  case unique =>
    obtain ⟨r, hr, -, op⟩ := exists_row_of_decode h
    refine ⟨r, ⟨hr, (matchesWord_iff hr w).2 op⟩, fun r' ⟨hr', matched⟩ => ?_⟩
    exact row_eq_of_op_eq r' hr' r hr (((matchesWord_iff hr' w).1 matched).symm.trans op)

/-- Settles O3: the decoder's answer depends on the used bits only. -/
theorem ignoredFieldsChangeNothing : Obligations.IgnoredFieldsChangeNothing := by
  unfold Obligations.IgnoredFieldsChangeNothing
  intro v w i h agree
  rw [decode_eq_ok_iff, ← and_usedBits_eq_encode_iff] at h ⊢
  exact agree.symm.trans h

/-- Settles O6: the clauses are `map_decode_assemble` line by line, with the values of the cut numbers. -/
theorem listingsDecodeToTheirOperations : Obligations.ListingsDecodeToTheirOperations := by
  unfold Obligations.ListingsDecodeToTheirOperations
  intro p
  have line := map_decode_assemble p
  refine ⟨line _, line _, line _, line _, line _, fun _ => line _, line _, fun _ => line _, fun a b wf => ?seek, fun c _ => ?setdest,
    fun c _ => ?setdma, fun a b wf => ?play, fun cpu n => ?readn, fun cpu => ?drain⟩
  case seek =>
    obtain ⟨ha, hb⟩ := Bool.and_eq_true_iff.1 wf
    exact ⟨_, _, line _, toNat_ofNat_of_fitsOperand ha, toNat_ofNat_of_fitsOperand hb⟩
  case setdest => exact ⟨_, line _, BitVec.toNat_ofNat c 8⟩
  case setdma => exact ⟨_, line _, BitVec.toNat_ofNat c 16⟩
  case play =>
    obtain ⟨ha, hb⟩ := Bool.and_eq_true_iff.1 wf
    exact ⟨_, _, line _, toNat_ofNat_of_fitsOperand ha, toNat_ofNat_of_fitsOperand hb⟩
  case readn => rw [line, Listing.operations, List.map_replicate]
  case drain => simp [line, Listing.operations]

/-- Settles O4: the decoder's two cases, and the step that takes a word of the second. -/
theorem reservedCodesAreRefused : Obligations.ReservedCodesAreRefused := by
  unfold Obligations.ReservedCodesAreRefused
  exact fun w => ⟨decode_eq_reserved_iff, fun reserved s ws hc =>
    step_of_decode_reserved (fetchCommand_of_commands_cons hc) (decode_eq_reserved_iff.2 reserved)⟩

/-- Settles O16: every way an operation can end answers in its shape. -/
theorem responseShapes : Obligations.ResponseShapes := by
  unfold Obligations.ResponseShapes
  intro s i t he
  cases performs_of_exec he with
  | init | start | stop | ackUnbound | ackRelease | seek | setdest | setdma => rfl
  | poll | bindBusy | bindInvalid | bindOldest | readSentinel | readRepeat | readNext | mode => exact ⟨_, rfl⟩

/-- Settles O17: bit 32 and the value below it, response by response. -/
theorem packedResponses : Obligations.PackedResponses := by
  unfold Obligations.PackedResponses
  refine fun free => ⟨rfl, fun r => ⟨packed_flag r 0, packed_value _ 0⟩, packed_flag false free,
    fun h => ⟨packed_flag true h, packed_value _ h⟩, fun v => ?word⟩
  case word =>
    rw [packResponse, packed_toNat, BitVec.toNat_setWidth_of_le (by decide)]

end Sys2Proof.Proofs
end

section
/-! PROOFS. The timecode encoder (spec/40_timecode_encoder.md R90 to R95): the two nibbles of `BCD(v)` for every `v`, what they decode
to, the bytes of a header in terms of its sector index, and the obligations about them. -/

namespace Sys2Proof.Machine

/-! ### The nibbles of a BCD byte (R90, R91) -/

/-- The ones digit fits below the shifted tens, so the formula's `|||` is a sum. -/
theorem bcd_toNat (v : Nat) : (bcd v).toNat = (v / 10 * 16 + v % 10) % 256 := by
  have ones : v % 10 < 2 ^ 4 := by omega
  rw [bcd, BitVec.toNat_ofNat, ← Nat.shiftLeft_add_eq_or_of_lt ones, Nat.shiftLeft_eq]

/-- The tens are cut to a nibble. -/
theorem bcd_tens (v : Nat) : (bcd v).toNat / 16 = v / 10 % 16 := by
  rw [bcd_toNat]
  omega

/-- The ones survive the cut. -/
theorem bcd_ones (v : Nat) : (bcd v).toNat % 16 = v % 10 := by
  rw [bcd_toNat]
  omega

/-! ### Decoding a BCD byte back (R94): a nibble of tens repeats after 160 -/

@[simp] theorem bcdValue_bcd (v : Nat) : bcdValue (bcd v) = v % 160 := by
  rw [bcdValue, bcd_tens, bcd_ones]
  omega

@[simp] theorem bcdValid_bcd_iff (v : Nat) : bcdValid (bcd v) ↔ v % 160 ≤ 99 := by
  rw [bcdValid, bcd_tens, bcd_ones]
  omega

theorem eq_of_bcd_eq {v w : Nat} (hv : v < 160) (hw : w < 160) (h : bcd v = bcd w) : v = w := by
  simpa [Nat.mod_eq_of_lt hv, Nat.mod_eq_of_lt hw] using congrArg bcdValue h

/-! ### The bytes of a header (R92) -/

@[simp] theorem encodeHeader_minute (modeByte : Byte) (n : SectorWord) :
    (encodeHeader modeByte n).minute = bcd (n.toNat / 4500) := rfl

@[simp] theorem encodeHeader_second (modeByte : Byte) (n : SectorWord) :
    (encodeHeader modeByte n).second = bcd (n.toNat / 75 % 60) := rfl

@[simp] theorem encodeHeader_frame (modeByte : Byte) (n : SectorWord) :
    (encodeHeader modeByte n).frame = bcd (n.toNat % 75) := rfl

/-- A sector index is its minutes, seconds and frames. -/
theorem eq_minutes_seconds_frames (n : Nat) : n = n / 4500 * 4500 + n / 75 % 60 * 75 + n % 75 := by omega

/-- R94: while the minutes fit a BCD byte, the header determines the sector index. -/
theorem encodeHeader_inj {modeByte : Byte} {m n : SectorWord} (hm : m.toNat < 450000) (hn : n.toNat < 450000)
    (h : encodeHeader modeByte m = encodeHeader modeByte n) : m = n := by
  have minutes : m.toNat / 4500 = n.toNat / 4500 := eq_of_bcd_eq (by omega) (by omega) (congrArg Header.minute h)
  have seconds : m.toNat / 75 % 60 = n.toNat / 75 % 60 := eq_of_bcd_eq (by omega) (by omega) (congrArg Header.second h)
  have frames : m.toNat % 75 = n.toNat % 75 := eq_of_bcd_eq (by omega) (by omega) (congrArg Header.frame h)
  apply BitVec.eq_of_toNat_eq
  rw [eq_minutes_seconds_frames m.toNat, minutes, seconds, frames, ← eq_minutes_seconds_frames]

end Sys2Proof.Machine

namespace Sys2Proof.Proofs
open Sys2Proof Sys2Proof.Machine

/-- Settles O8: below 100 the tens are a digit, so the cut to a nibble keeps them. -/
theorem bcdPacksTwoDigits : Obligations.BcdPacksTwoDigits := by
  unfold Obligations.BcdPacksTwoDigits
  intro v hv
  have tens : v / 10 % 16 = v / 10 := Nat.mod_eq_of_lt (by omega)
  exact ⟨(bcd_tens v).trans tens, bcd_ones v, (bcdValid_bcd_iff v).2 (by omega)⟩

/-- Settles O9: the formula of R91 as a sum. -/
theorem bcdUnguardedIsTruncated : Obligations.BcdUnguardedIsTruncated := bcd_toNat

/-- Settles O10: seconds and frames are always below 100; the minutes are below 100 exactly below 450000, from 100 to 159 up to 719999,
and 160 at 720000, where the byte repeats. -/
theorem timecodeDecodesBack : Obligations.TimecodeDecodesBack := by
  unfold Obligations.TimecodeDecodesBack
  refine fun modeByte => ⟨fun n => ?bytes, fun _ _ hm hn h => encodeHeader_inj hm hn h, rfl⟩
  simp only [encodeHeader_minute, encodeHeader_second, encodeHeader_frame, bcdValid_bcd_iff, bcdValue_bcd]
  have seconds : n.toNat / 75 % 60 < 60 := Nat.mod_lt _ (by decide)
  have frames : n.toNat % 75 < 75 := Nat.mod_lt _ (by decide)
  refine ⟨?secondValid, ?secondValue, ?frameValid, ?frameValue, ?minuteRange, bcd_toNat _, fun below => ?minuteBelow,
    fun above below => ?minuteAbove⟩
  case secondValid | secondValue | frameValid | frameValue | minuteRange => omega
  case minuteBelow =>
    have minutes : n.toNat / 4500 % 160 = n.toNat / 4500 := Nat.mod_eq_of_lt (by omega)
    exact ⟨by omega, minutes⟩
  case minuteAbove =>
    have minutes : n.toNat / 4500 % 160 = n.toNat / 4500 := Nat.mod_eq_of_lt (by omega)
    omega

end Sys2Proof.Proofs
end

section
/-! PROOFS. The sector ring buffer (spec/41_sector_ring_buffer.md R103 to R112): the ring as a queue of whole sectors, how long a pass runs,
a pass that cannot start, the rounds of `BEGINREAD` and `ACK` that drain a run, and the obligations about them. -/

namespace Sys2Proof.Machine

/-! ### The buffered sectors under the shared operations (R108) -/

theorem slotWords_congr {s t : State} {slot : Nat} (hp : t.params = s.params) (h : ∀ w, slotWord? t slot w = slotWord? s slot w) :
    slotWords t slot = slotWords s slot := by
  simp [slotWords, slotWord, hp, h]

/-- The queue is a function of the slots, the drain index and the occupancy. -/
theorem contents_congr {s t : State} (hp : t.params = s.params) (hs : t.slots = s.slots) (hr : t.readIndex = s.readIndex)
    (ho : t.occupancy = s.occupancy) : contents t = contents s := by
  rw [contents, contents, ho]
  refine List.map_congr_left fun k _ => ?_
  rw [occupiedSlot_congr hp hr, slotWords_congr hp (slotWord?_congr hp hs _)]

theorem contents_of_occupancy_zero {s : State} (h : s.occupancy = 0) : contents s = [] := by
  simp [contents, h]

/-- The words of the `j`-th slot a pass fills (R102). -/
theorem CdcInv.slotWords_filled {s : State} (h : CdcInv s) {j : Nat} (hj : j < refillCount s) :
    slotWords (Machine.refillPass s) (occupiedSlot s (s.occupancy + j)) = (List.range s.params.wordsPerSector).map (refillWord s j) := by
  rw [slotWords, refillPass_params]
  refine List.map_congr_left fun w hw => slotWord_of_some ?_
  rw [← h.fillSlot]
  exact h.afterRefill.stored j hj w (List.mem_range.1 hw)

/-- R102, R108: a pass appends the sectors it stores. -/
theorem CdcInv.contents_refillPass {s : State} (h : CdcInv s) : contents (Machine.refillPass s) =
    contents s ++ (List.range (refillCount s)).map fun j => (List.range s.params.wordsPerSector).map (refillWord s j) := by
  have slot : ∀ k, occupiedSlot (Machine.refillPass s) k = occupiedSlot s k := occupiedSlot_congr (by simp) (by simp)
  rw [contents, h.afterRefill.occupancy, List.range_add, List.map_append, List.map_map]
  refine congrArg₂ _ (List.map_congr_left fun k hk => ?old) (List.map_congr_left fun j hj => ?new)
  case old => rw [slot, slotWords_congr (refillPass_params s) (h.refill_spares_occupied (List.mem_range.1 hk))]
  case new => rw [Function.comp_apply, slot, h.slotWords_filled (List.mem_range.1 hj)]

/-- The oldest buffered sector stands in the slot at `read_index` (R45). -/
theorem CdcInv.contents_eq_cons {s : State} (h : CdcInv s) (hpos : 0 < s.occupancy) :
    contents s = slotWords s s.readIndex :: contents s.unbind.releaseOldest := by
  obtain ⟨n, hn⟩ := Nat.exists_eq_add_of_lt hpos
  have next : ∀ k, occupiedSlot s.unbind.releaseOldest k = occupiedSlot s (k + 1) := fun k => by
    simp [occupiedSlot, Nat.add_comm k 1, Nat.add_assoc]
  have remaining : s.unbind.releaseOldest.occupancy = n := by simp; omega
  rw [contents, contents, remaining, show s.occupancy = n + 1 by omega, List.range_succ_eq_map, List.map_cons, List.map_map,
    h.occupiedSlot_zero]
  congr 1
  refine List.map_congr_left fun k _ => ?_
  rw [next]
  rfl

/-- A sector is its two header words and a payload (R13, R52). -/
theorem slotWords_eq_cons {s : State} (hp : s.params.wf = true) (slot : Nat) :
    ∃ payload, slotWords s slot = slotWord s slot 0 :: slotWord s slot 1 :: payload := by
  obtain ⟨n, hn⟩ := Nat.exists_eq_add_of_le (Params.three_le_wordsPerSector hp)
  rw [slotWords, hn, Nat.add_comm 3 n, List.range_succ_eq_map, List.range_succ_eq_map]
  exact ⟨_, rfl⟩

/-! ### The buffered sectors under an operation -/

namespace Performs
variable {i : Instr} {s t : State}

/-- What a refilling operation writes after its pass is neither the drain index nor the occupancy. -/
theorem drainSide_refilled (p : Performs s i t) (hi : refills i = true) :
    t.readIndex = (refillPass (refillStart i s)).readIndex ∧ t.occupancy = (refillPass (refillStart i s)).occupancy := by
  cases p with
  | start | seek | poll | bindBusy | bindInvalid | bindOldest => exact ⟨rfl, rfl⟩
  | _ => cases hi

/-- R104: a refilling operation raises the occupancy by the sectors of one pass. -/
theorem occupancy_refilled (p : Performs s i t) (hs : CdcInv s) (hi : refills i = true) :
    t.occupancy = s.occupancy + refillCount (refillStart i s) := by
  rw [(p.drainSide_refilled hi).2, (hs.refillStart i).afterRefill.occupancy, refillStart_occupancy]

theorem contents_refilled (p : Performs s i t) (hs : CdcInv s) (hi : refills i = true) :
    contents t = contents s ++ (List.range (refillCount (refillStart i s))).map fun j =>
      (List.range s.params.wordsPerSector).map (refillWord (refillStart i s) j) := by
  obtain ⟨hread, hocc⟩ := p.drainSide_refilled hi
  have after : contents t = contents (refillPass (refillStart i s)) :=
    contents_congr (by simp [p.params]) (p.refilled hi).1 hread hocc
  have before : contents (refillStart i s) = contents s := contents_congr (by simp) (by simp) (by simp) (by simp)
  rw [after, (hs.refillStart i).contents_refillPass, before, refillStart_params]

/-- `ACK` of a bound transfer drops the oldest sector. -/
theorem contents_ack (p : Performs s .ack t) (hs : CdcInv s) (hb : s.bound = true) :
    ∃ oldest, contents s = oldest :: contents t := by
  cases p with
  | ackUnbound free => rw [free] at hb; cases hb
  | ackRelease _ nonempty => exact ⟨_, hs.contents_eq_cons nonempty⟩

/-- An operation that runs no pass and releases no slot leaves the queue. -/
theorem contents_kept (p : Performs s i t) (hi : refills i = false) (hinit : i ≠ .init) (hack : ¬ (i = .ack ∧ s.bound = true)) :
    contents t = contents s := by
  cases p with
  | init => exact absurd rfl hinit
  | ackRelease bound => exact absurd ⟨rfl, bound⟩ hack
  | start | seek | poll | bindBusy | bindInvalid | bindOldest => cases hi
  | stop | readSentinel | readRepeat | readNext | ackUnbound | mode | setdest | setdma => exact contents_congr rfl rfl rfl rfl

/-- R124: the header a bind returns is the first two words of the oldest sector. -/
theorem header_of_bind (p : Performs s .beginread t) (hs : CdcInv s) {h : HeaderWord} (hr : t.response = some (.bind (some h))) :
    ∃ w0 w1 ws rest, contents t = (w0 :: w1 :: ws) :: rest ∧ h = w0 ++ w1 := by
  have hpass := hs.refillPass
  cases p with
  | bindBusy | bindInvalid => simp at hr
  | bindOldest target nonempty =>
    obtain ⟨payload, oldest⟩ := slotWords_eq_cons hpass.params (refillPass s).readIndex
    have header : h = oldestHeader (refillPass s) := by simpa using hr.symm
    refine ⟨_, _, payload, contents (refillPass s).unbind.releaseOldest, ?_, header⟩
    rw [← oldest, ← hpass.contents_eq_cons (Nat.pos_of_ne_zero nonempty)]
    exact contents_congr rfl rfl rfl rfl

/-- R104, R122: a bind succeeds exactly where, after the pass, its checks let it. -/
theorem bindSucceeded_iff (p : Performs s .beginread t) :
    bindSucceeded t ↔ t.occupancy ≠ 0 ∧ s.bound = false ∧ (targetOfCode s.deviceDestination).isSome = true := by
  cases p with
  | bindBusy busy => rcases busy with empty | bound <;> simp [*]
  | bindInvalid _ _ code => simp [code]
  | bindOldest target nonempty free code => simp [nonempty, free, code]

end Performs

/-! ### A pass that cannot start (R110) -/

theorem canRefill_eq_false {s : State} (h : s.reading = false ∨ s.occupancy = s.params.capacity) : canRefill s = false := by
  rcases h with h | h <;> simp [canRefill, h]

theorem exec_poll_idle {s : State} (h : canRefill s = false) :
    exec .poll s = .next (s.answer (.ready (decide (0 < s.occupancy)))) := by
  rw [exec, execPoll, refillPass_idle s h, respond]

theorem exec_seek_idle {s : State} (h : canRefill s = false) (a b : SectorWord) :
    exec (.seek a b) s = .next ((s.setPosition a b).answer .done) := by
  rw [exec, execSeek, refillPass_idle (s.setPosition a b) h, respond]

theorem exec_beginread_idle {s : State} (h : canRefill s = false) :
    ∃ t, exec .beginread s = .next t ∧ t.source = s.source ∧ t.slots = s.slots ∧ t.occupancy = s.occupancy ∧
      t.writeIndex = s.writeIndex ∧ t.currentSector = s.currentSector ∧ t.sectorsRemaining = s.sectorsRemaining ∧
      t.reading = s.reading := by
  rw [exec, execBeginread, refillPass_idle s h]
  rcases bindOrFail_cases s with ⟨-, e⟩ | ⟨-, -, -, e⟩ | ⟨-, -, target, -, e⟩
  all_goals exact ⟨_, e, rfl, rfl, rfl, rfl, rfl, rfl, rfl⟩

/-! ### How long a pass runs while `reading` is set (R103) -/

section
variable {s : State}

/-- A count of 0 is unbounded: the pass fills the ring and goes on reading. -/
theorem CdcInv.refillPass_unbounded (h : CdcInv s) (hr : s.reading = true) (hn : s.sectorsRemaining = 0) :
    (Machine.refillPass s).sectorsRemaining = 0 ∧ (Machine.refillPass s).reading = true ∧
      (Machine.refillPass s).occupancy = s.params.capacity := by
  have a := h.afterRefill
  have count : refillCount s = s.params.capacity - s.occupancy := by simp [refillCount_eq, hr, hn]
  have full := h.occupancy
  refine ⟨?_, by simp [a.reading, hr, hn], by rw [a.occupancy]; omega⟩
  rw [sectorsRemaining_eq_zero, a.sectorsRemaining, hn]
  simp

/-- A nonzero count that fits the free slots is the number of sectors stored, and the run is over. -/
theorem CdcInv.refillPass_bounded (h : CdcInv s) (hr : s.reading = true) (hn : s.sectorsRemaining ≠ 0)
    (hfit : s.sectorsRemaining.toNat ≤ s.params.capacity - s.occupancy) :
    refillCount s = s.sectorsRemaining.toNat ∧ (Machine.refillPass s).sectorsRemaining = 0 ∧
      (Machine.refillPass s).reading = false := by
  have a := h.afterRefill
  rw [ne_eq, sectorsRemaining_eq_zero] at hn
  have count : refillCount s = s.sectorsRemaining.toNat := by simp [refillCount_eq, hr, hn, hfit]
  refine ⟨count, ?_, by simp [a.reading, count]; omega⟩
  rw [sectorsRemaining_eq_zero, a.sectorsRemaining]
  omega

/-- A larger count goes down by the free slots, and the run goes on. -/
theorem CdcInv.refillPass_longer (h : CdcInv s) (hr : s.reading = true)
    (hmore : s.params.capacity - s.occupancy < s.sectorsRemaining.toNat) :
    (Machine.refillPass s).sectorsRemaining.toNat = s.sectorsRemaining.toNat - (s.params.capacity - s.occupancy) ∧
      (Machine.refillPass s).reading = true ∧ (Machine.refillPass s).occupancy = s.params.capacity := by
  have a := h.afterRefill
  have hn : s.sectorsRemaining.toNat ≠ 0 := by omega
  have count : refillCount s = s.params.capacity - s.occupancy := by simp [refillCount_eq, hr, hn]; omega
  have full := h.occupancy
  refine ⟨by rw [a.sectorsRemaining, count], ?_, by rw [a.occupancy]; omega⟩
  simp [a.reading, hr, count]
  omega

end

/-! ### A run drained by rounds of `BEGINREAD` and `ACK` (R108) -/

/-- The header of a sector's words: the first two, combined (R55). -/
def sectorHeader (words : List Word) : HeaderWord := header32 (words.getD 0 0) (words.getD 1 0)

theorem sectorHeader_slotWords {s : State} (hp : s.params.wf = true) (slot : Nat) :
    sectorHeader (slotWords s slot) = header32 (slotWord s slot 0) (slotWord s slot 1) := by
  obtain ⟨payload, h⟩ := slotWords_eq_cons hp slot
  rw [h]
  rfl

theorem sectorHeader_refillWord {s : State} (hp : s.params.wf = true) (j : Nat) :
    sectorHeader ((List.range s.params.wordsPerSector).map (refillWord s j)) =
      headerOf s.params.modeByte (s.currentSector + BitVec.ofNat 32 j) := by
  obtain ⟨n, hn⟩ := Nat.exists_eq_add_of_le (Params.three_le_wordsPerSector hp)
  rw [hn, Nat.add_comm 3 n, List.range_succ_eq_map, List.range_succ_eq_map]
  rfl

/-- The headers of `count` sectors from `n` on; the sector indices wrap (92_eei_decisions.md D10). -/
def headersFrom (modeByte : Byte) (n : SectorWord) (count : Nat) : List HeaderWord :=
  (List.range count).map fun k => headerOf modeByte (n + BitVec.ofNat 32 k)

theorem add_ofNat_add (n : SectorWord) (j k : Nat) : n + BitVec.ofNat 32 j + BitVec.ofNat 32 k = n + BitVec.ofNat 32 (j + k) := by
  rw [BitVec.add_assoc, BitVec.ofNat_add]

theorem headersFrom_add (modeByte : Byte) (n : SectorWord) (j k : Nat) :
    headersFrom modeByte n (j + k) = headersFrom modeByte n j ++ headersFrom modeByte (n + BitVec.ofNat 32 j) k := by
  simp [headersFrom, List.range_add, add_ofNat_add, Function.comp_def]

theorem headersFrom_succ (modeByte : Byte) (n : SectorWord) (k : Nat) :
    headersFrom modeByte n (k + 1) = headerOf modeByte n :: headersFrom modeByte (n + 1) k := by
  rw [Nat.add_comm, headersFrom_add]
  simp [headersFrom]

/-- `s` serves the next `count` rounds of `BEGINREAD` and `ACK` from sector `n` on: the ring holds `n` to `current_sector - 1`, and what it
lacks of `count` the run still brings. -/
structure Serves (s : State) (n : SectorWord) (count : Nat) : Prop where
  inv      : CdcInv s
  code     : (targetOfCode s.deviceDestination).isSome = true
  headers  : (contents s).map sectorHeader = headersFrom s.params.modeByte n s.occupancy
  position : s.currentSector = n + BitVec.ofNat 32 s.occupancy
  supply   : count ≤ s.occupancy ∨
    s.reading = true ∧ (s.sectorsRemaining.toNat = 0 ∨ count ≤ s.occupancy + s.sectorsRemaining.toNat)

namespace Serves
variable {s : State} {n : SectorWord} {count : Nat}

theorem answer (h : Serves s n count) (r : Response) : Serves (s.answer r) n count :=
  ⟨h.inv.answer r, h.code, h.headers, h.position, h.supply⟩

/-- A pass appends consecutive sectors, and what it stores it takes off the count. -/
theorem refillPass (h : Serves s n count) : Serves (Machine.refillPass s) n count := by
  have a := h.inv.afterRefill
  refine ⟨h.inv.refillPass, by simp [h.code], ?headers, ?position, ?supply⟩
  case headers =>
    rw [h.inv.contents_refillPass, List.map_append, h.headers, List.map_map, a.occupancy, a.params, headersFrom_add, ← h.position]
    exact congrArg _ (List.map_congr_left fun j _ => sectorHeader_refillWord h.inv.params j)
  case position => rw [a.currentSector, h.position, add_ofNat_add, a.occupancy]
  case supply =>
    rw [a.occupancy, a.reading, a.sectorsRemaining]
    rcases h.supply with enough | ⟨reading, unbounded | brings⟩
    · exact .inl (by omega)
    · exact .inr (by simp [reading, unbounded])
    · by_cases done : refillCount s = s.sectorsRemaining.toNat
      · exact .inl (by omega)
      · refine .inr (by simp [reading, done]; omega)

/-- Where a round is still to come, a pass leaves a sector to bind. -/
theorem occupancy_refillPass (h : Serves s n (count + 1)) : (Machine.refillPass s).occupancy ≠ 0 := by
  have room := h.inv.capacity_pos
  rw [h.inv.afterRefill.occupancy, refillCount_eq]
  rcases h.supply with enough | ⟨reading, supply⟩
  · omega
  · rw [if_pos reading]
    split <;> omega

/-- `START` ends no supply. -/
theorem setReading (h : Serves s n count) : Serves (s.setReading true) n count :=
  ⟨h.inv.setReading true, h.code, h.headers, h.position, h.supply.imp_right fun ⟨_, supply⟩ => ⟨rfl, supply⟩⟩

/-- A bind moves no sector. -/
theorem bindOldest (h : Serves s n count) (target : Bool) (nonempty : s.occupancy ≠ 0) : Serves (s.bindOldest target) n count :=
  ⟨h.inv.bindOldest target nonempty, h.code, h.headers, h.position, h.supply⟩

/-- The header of the oldest sector is that of `n`. -/
theorem oldestHeader_eq (h : Serves s n count) (hpos : 0 < s.occupancy) :
    oldestHeader s = headerOf s.params.modeByte n ∧
      (contents s.unbind.releaseOldest).map sectorHeader = headersFrom s.params.modeByte (n + 1) (s.occupancy - 1) := by
  have headers := h.headers
  rw [h.inv.contents_eq_cons hpos, ← Nat.sub_add_cancel hpos, headersFrom_succ, List.map_cons,
    sectorHeader_slotWords h.inv.params] at headers
  exact List.cons.inj headers

/-- Releasing the oldest sector leaves the sectors after it. -/
theorem releaseOldest (h : Serves s n (count + 1)) (hpos : 0 < s.occupancy) : Serves s.unbind.releaseOldest (n + 1) count := by
  refine ⟨h.inv.releaseOldest hpos, h.code, (h.oldestHeader_eq hpos).2, ?position, ?supply⟩
  case position =>
    show s.currentSector = n + 1 + BitVec.ofNat 32 (s.occupancy - 1)
    rw [h.position, ← Nat.sub_add_cancel hpos, Nat.add_comm, ← add_ofNat_add]
    simp
  case supply =>
    simp only [State.releaseOldest_occupancy, State.releaseOldest_reading, State.releaseOldest_sectorsRemaining,
      State.unbind_occupancy, State.unbind_reading, State.unbind_sectorsRemaining]
    exact h.supply.imp (by omega) (And.imp_right (by omega))

end Serves

/-! ### The answers of the rounds -/

theorem exec_beginread_bind {s : State} {target : Bool} (nonempty : (refillPass s).occupancy ≠ 0) (free : s.bound = false)
    (code : targetOfCode s.deviceDestination = some target) : exec .beginread s =
      .next (((refillPass s).bindOldest target).answer (.bind (some (oldestHeader (refillPass s))))) := by
  have check : bindCheck (refillPass s) = .ok target := by simp [bindCheck, nonempty, free, code]
  rw [exec, execBeginread, bindOrFail, check]
  rfl

theorem exec_ack_release {s : State} (bound : s.bound = true) (pre : 0 < s.occupancy ∧ s.boundSlotIndex = s.readIndex) :
    exec .ack s = .next (s.unbind.releaseOldest.answer .done) := by
  rcases execAck_cases s with ⟨free, -⟩ | ⟨-, -, e⟩ | ⟨-, refused, -⟩
  · rw [bound] at free; cases free
  · exact e
  · exact absurd pre refused

/-- A transfer that was just bound meets `Consume`'s precondition (R43). -/
theorem exec_ack_bindOldest {s : State} (pos : 0 < s.occupancy) (target : Bool) (r : Response) :
    exec .ack ((s.bindOldest target).answer r) = .next (((s.bindOldest target).answer r).unbind.releaseOldest.answer .done) :=
  exec_ack_release rfl ⟨pos, rfl⟩

theorem responses_cons {i : Instr} {r : Response} {s t : State} (h : exec i s = .next (t.answer r)) (is : List Instr) :
    responses (i :: is) s = (responses is (t.answer r)).map (r :: ·) := by
  rw [responses, h]
  simp only [State.answer_response]
  cases responses is (t.answer r) <;> rfl

namespace Serves
variable {s : State} {n : SectorWord} {count : Nat}

/-- One round: `BEGINREAD` answers the header of `n`, and `ACK` leaves a state that serves the rounds from `n + 1` on. -/
theorem responses_round (h : Serves s n (count + 1)) (free : s.bound = false) (is : List Instr) :
    ∃ t, Serves t (n + 1) count ∧ t.params = s.params ∧ t.bound = false ∧
      responses (.beginread :: .ack :: is) s =
        (responses is t).map fun rs => .bind (some (headerOf s.params.modeByte n)) :: .done :: rs := by
  obtain ⟨target, code⟩ := Option.isSome_iff_exists.1 h.code
  have nonempty := h.occupancy_refillPass
  have pos := Nat.pos_of_ne_zero nonempty
  have header := (h.refillPass.oldestHeader_eq pos).1
  have begun := exec_beginread_bind nonempty free code
  rw [header, refillPass_params] at begun
  have served := ((h.refillPass.bindOldest target nonempty).answer (.bind (some (headerOf s.params.modeByte n)))).releaseOldest pos
  refine ⟨_, served.answer .done, by simp, by simp, ?_⟩
  rw [responses_cons begun, responses_cons (exec_ack_bindOldest pos target _), Option.map_map]
  rfl

theorem responses_rounds (h : Serves s n count) (free : s.bound = false) :
    responses (List.replicate count [Instr.beginread, .ack]).flatten s =
      some ((headersFrom s.params.modeByte n count).map fun header => [Response.bind (some header), .done]).flatten := by
  induction count generalizing s n with
  | zero => rfl
  | succ count ih =>
    obtain ⟨t, served, params, free', round⟩ := h.responses_round free (List.replicate count [Instr.beginread, .ack]).flatten
    rw [ih served free', params] at round
    rw [headersFrom_succ]
    exact round

/-- `SEEK` on an empty ring sets up a run that a `START` makes serve; where `reading` is set, `SEEK`'s own pass has begun it. -/
theorem of_seek (hs : CdcInv s) (hempty : s.occupancy = 0) (hcode : (targetOfCode s.deviceDestination).isSome = true)
    (a b : SectorWord) :
    Serves (((Machine.refillPass (s.setPosition a b)).answer .done).setReading true) a b.toNat := by
  have position : (s.setPosition a b).currentSector = a + BitVec.ofNat 32 (s.setPosition a b).occupancy := by simp [hempty]
  have headers : (contents (s.setPosition a b)).map sectorHeader = headersFrom s.params.modeByte a (s.setPosition a b).occupancy := by
    simp [contents, hempty, headersFrom]
  cases hr : s.reading with
  | false =>
    rw [refillPass_idle (s.setPosition a b) (canRefill_eq_false (.inl hr))]
    exact ⟨((hs.setPosition a b).answer .done).setReading true, hcode, headers, position, .inr ⟨rfl, .inr (Nat.le_add_left _ _)⟩⟩
  | true =>
    have served : Serves (s.setPosition a b) a b.toNat :=
      ⟨hs.setPosition a b, hcode, headers, position, .inr ⟨hr, .inr (Nat.le_add_left _ _)⟩⟩
    exact (served.refillPass.answer .done).setReading

end Serves

end Sys2Proof.Machine

namespace Sys2Proof.Proofs
open Sys2Proof Sys2Proof.Machine

/-- Settles O35: the queue under a pass, under a release and under everything else. -/
theorem ringIsAQueue : Obligations.RingIsAQueue := by
  unfold Obligations.RingIsAQueue
  intro s i t hs he
  have p := performs_of_exec he
  refine ⟨p.contents_refilled hs, ?ack, ?init, p.contents_kept, ?bind⟩
  case ack => rintro rfl hb; exact p.contents_ack hs hb
  case init => rintro rfl; cases p; exact contents_of_occupancy_zero rfl
  case bind => rintro h rfl hr; exact p.header_of_bind hs hr

/-- Settles O27: one pass in each of the four operations, none in the others, and the two answers that depend on its result. -/
theorem whichOperationsRefill : Obligations.WhichOperationsRefill := by
  unfold Obligations.WhichOperationsRefill
  intro s i t hs he
  have p := performs_of_exec he
  refine ⟨fun hi => ⟨p.calls_refilled hs hi, p.occupancy_refilled hs hi⟩, ?poll, ?bind, fun hi => ?others⟩
  case poll => rintro rfl; cases p; rfl
  case bind => rintro rfl; exact p.bindSucceeded_iff
  case others =>
    have unfilled : ¬ (t.slots ≠ s.slots ∨ t.source ≠ s.source ∨ t.occupancy > s.occupancy) := fun hne => by
      rw [p.writes_fillSide hne] at hi; cases hi
    simp only [not_or, not_not, Nat.not_lt] at unfilled
    obtain ⟨slots, source, occupancy⟩ := unfilled
    exact ⟨source, slots, occupancy⟩

/-- Settles O28: `SEEK`'s two writes do not make a pass start that could not. -/
theorem idlePassChangesNothing : Obligations.IdlePassChangesNothing := by
  unfold Obligations.IdlePassChangesNothing
  intro s _ hidle
  have idle := canRefill_eq_false hidle
  exact ⟨exec_poll_idle idle, exec_seek_idle idle, exec_beginread_idle idle⟩

/-- Settles O31: the three lengths of a pass; the second `START` finds a count of 0 and is unbounded. -/
theorem boundedAndUnboundedRuns : Obligations.BoundedAndUnboundedRuns := by
  unfold Obligations.BoundedAndUnboundedRuns
  intro s hs
  have start := hs.setReading true
  refine ⟨_, rfl, start.refillPass_unbounded rfl, fun hn hfit => ?bounded, start.refillPass_longer rfl⟩
  case bounded =>
    obtain ⟨count, remaining, reading⟩ := start.refillPass_bounded rfl hn hfit
    have occupancy := start.afterRefill.occupancy
    rw [count] at occupancy
    have again := (start.refillPass.answer .done).setReading true
    obtain ⟨remaining', reading', full⟩ := again.refillPass_unbounded rfl remaining
    exact ⟨remaining, reading, occupancy, _, rfl, reading', remaining', by simpa using full⟩

/-- Settles O32: three sectors fit, so the run is over and the pass of the `POLL` cannot start. -/
theorem runOfThreeSectors : Obligations.RunOfThreeSectors := by
  unfold Obligations.RunOfThreeSectors
  intro s hs hempty hcap hthree
  have start := hs.setReading true
  have three : s.sectorsRemaining.toNat = 3 := by rw [hthree]; rfl
  obtain ⟨stored, -, reading⟩ := start.refillPass_bounded rfl (by simp [hthree]) (by simp [three, hempty, hcap])
  have count : refillCount (s.setReading true) = 3 := stored.trans three
  have occupancy : (refillPass (s.setReading true)).occupancy = 3 := by simp [start.afterRefill.occupancy, count, hempty]
  refine ⟨_, rfl, occupancy, reading, by simp [start.afterRefill.calls, count], ?poll⟩
  case poll =>
    have idle : canRefill ((refillPass (s.setReading true)).answer .done) = false := canRefill_eq_false (.inl reading)
    have ready : decide (0 < ((refillPass (s.setReading true)).answer .done).occupancy) = true := by simp [occupancy]
    rw [exec_poll_idle idle, ready]
    rfl

/-- Settles O33: `ACK` is refused exactly where `Consume` is, and R43 gives `Consume` its precondition. -/
theorem consumeHasAPrecondition : Obligations.ConsumeHasAPrecondition := by
  unfold Obligations.ConsumeHasAPrecondition
  refine ⟨fun slot s hpos hslot => ?frees, fun slot s hpre => ?refused, fun s hb hpre => ?ack, fun s r hs he => ?never⟩
  case frees => exact (consume_eq slot s).trans (if_pos ⟨hpos, hslot⟩)
  case refused => exact (consume_eq slot s).trans (if_neg hpre)
  case ack =>
    rcases execAck_cases s with ⟨free, -⟩ | ⟨-, pre, -⟩ | ⟨-, -, e⟩
    · rw [hb] at free; cases free
    · exact absurd pre hpre
    · exact e
  case never =>
    change execAck s = _ at he
    rcases execAck_cases s with ⟨-, e⟩ | ⟨-, -, e⟩ | ⟨bound, pre, -⟩
    · rw [e] at he; cases he
    · rw [e] at he; cases he
    · obtain ⟨oldest, nonempty⟩ := hs.bound bound
      exact pre ⟨nonempty, oldest⟩

/-- Settles O36: after `SEEK` and `START` the ring serves `b` rounds from `a` on. -/
theorem seekRunYieldsConsecutiveHeaders : Obligations.SeekRunYieldsConsecutiveHeaders := by
  unfold Obligations.SeekRunYieldsConsecutiveHeaders
  intro s a b hs hempty hfree hcode
  have code : (targetOfCode s.deviceDestination).isSome = true := by rcases hcode with h | h | h | h <;> rw [h] <;> rfl
  have served := (Serves.of_seek hs hempty code a b).refillPass.answer .done
  have seek : exec (.seek a b) s = .next ((refillPass (s.setPosition a b)).answer .done) := rfl
  have start : exec .start ((refillPass (s.setPosition a b)).answer .done) =
      .next ((refillPass (((refillPass (s.setPosition a b)).answer .done).setReading true)).answer .done) := rfl
  rw [responses_cons seek, responses_cons start, served.responses_rounds (by simp [hfree])]
  simp [headersFrom, Function.comp_def]

end Sys2Proof.Proofs
end

section
/-! PROOFS. The host transfer state machine (spec/42_host_transfer.md R120 to R130): one equation of `exec` per row of R129's table, the
transfer that stays bound under every operation but `ACK` and `INIT` (`StillBound`), and the obligations about them. -/

namespace Sys2Proof.Machine

/-! ### The words of the oldest slot (R45, R124) -/

namespace CdcInv
variable {s : State} {w : Nat}

/-- The words of the oldest buffered sector have been written (R45), so what is read is what the slot holds. -/
theorem slotWord?_oldest (h : CdcInv s) (hpos : 0 < s.occupancy) (hw : w < s.params.wordsPerSector) :
    slotWord? s s.readIndex w = some (slotWord s s.readIndex w) := by
  have written := h.written 0 hpos w hw
  rw [h.occupiedSlot_zero] at written
  obtain ⟨v, hv⟩ := Option.isSome_iff_exists.1 written
  rw [hv, slotWord_of_some hv]

/-- A bound transfer reads the oldest slot (R43). -/
theorem slotWord?_bound (h : CdcInv s) (bound : s.bound = true) (hw : w < s.params.wordsPerSector) :
    slotWord? s s.boundSlotIndex w = some (slotWord s s.boundSlotIndex w) := by
  obtain ⟨oldest, nonempty⟩ := h.bound bound
  rw [oldest]
  exact h.slotWord?_oldest nonempty hw

/-- Both header words lie inside the sector (R13). -/
theorem headerWords_oldest (h : CdcInv s) (hpos : 0 < s.occupancy) :
    slotWord? s s.readIndex 0 = some (slotWord s s.readIndex 0) ∧ slotWord? s s.readIndex 1 = some (slotWord s s.readIndex 1) := by
  have hW := Params.three_le_wordsPerSector h.params
  exact ⟨h.slotWord?_oldest hpos (by omega), h.slotWord?_oldest hpos (by omega)⟩

end CdcInv

theorem header32_toNat (word0 word1 : Word) : (header32 word0 word1).toNat = 2 ^ 16 * word0.toNat + word1.toNat := by
  rw [header32, BitVec.toNat_append, ← Nat.shiftLeft_add_eq_or_of_lt word1.isLt, Nat.shiftLeft_eq, Nat.mul_comm]

/-! ### `BEGINREAD`, row by row (R121 to R123) -/

theorem targetOfCode_of_valid {code : Byte} (h : code = 2 ∨ code = 3 ∨ code = 5 ∨ code = 7) :
    targetOfCode code = some (decide (code ≠ 2)) := by
  rcases h with rfl | rfl | rfl | rfl <;> decide

section
variable {s : State}

theorem exec_beginread_busy (busy : (refillPass s).occupancy = 0 ∨ s.bound = true) :
    exec .beginread s = .next ((refillPass s).answer (.bind none)) := by
  rcases bindOrFail_cases (refillPass s) with ⟨-, e⟩ | ⟨nonempty, free, -⟩ | ⟨nonempty, free, -⟩
  · exact e
  all_goals exact absurd busy (by simpa [nonempty] using free)

theorem exec_beginread_invalid (nonempty : (refillPass s).occupancy ≠ 0) (free : s.bound = false)
    (code : targetOfCode s.deviceDestination = none) :
    exec .beginread s = .next (((refillPass s).emitDiag s.deviceDestination).answer (.bind none)) := by
  have check : bindCheck (refillPass s) = .error .invalidDest := by simp [bindCheck, nonempty, free, code]
  rw [exec, execBeginread, bindOrFail, check, ← refillPass_deviceDestination s]
  rfl

end

section
variable (s : State)

/-- The diagnostic after a pass goes to the log the pass found. -/
theorem emitDiag_refillPass (c : Byte) :
    (refillPass s).emitDiag c = { refillPass s with diagLog := s.diagLog ++ [c] } := by
  rw [State.emitDiag, refillPass_diagLog]

/-- The bind after a pass is to the slot that was the oldest before it. -/
theorem bindOldest_refillPass (target : Bool) : (refillPass s).bindOldest target =
    { refillPass s with targetIsSubCpu := target, boundSlotIndex := s.readIndex, wordCursor := 0, bound := true } := by
  rw [← refillPass_readIndex s]
  rfl

/-- The header the bind returns is that slot's first two words (R124). -/
theorem oldestHeader_refillPass : oldestHeader (refillPass s) =
    header32 (slotWord (refillPass s) s.readIndex 0) (slotWord (refillPass s) s.readIndex 1) := by
  rw [oldestHeader, refillPass_readIndex]

variable {s} in
/-- Both words of that header have been written. -/
theorem CdcInv.headerWords_refillPass (h : CdcInv s) (nonempty : (Machine.refillPass s).occupancy ≠ 0) :
    slotWord? (Machine.refillPass s) s.readIndex 0 = some (slotWord (Machine.refillPass s) s.readIndex 0) ∧
      slotWord? (Machine.refillPass s) s.readIndex 1 = some (slotWord (Machine.refillPass s) s.readIndex 1) := by
  rw [← refillPass_readIndex s]
  exact h.refillPass.headerWords_oldest (Nat.pos_of_ne_zero nonempty)

end

/-! ### `READWORD` and `ACK`, row by row (R125 to R128) -/

section
variable {s : State} {cpu : Cpu}

theorem exec_readword_sentinel (unread : cpu.isSub ≠ s.targetIsSubCpu ∨ s.bound = false) :
    exec (.readword cpu) s = .next (s.answer (.word 0)) := by
  rcases execReadword_cases cpu s with ⟨-, e⟩ | ⟨target, bound, -⟩ | ⟨target, bound, -⟩
  · exact e
  all_goals exact absurd unread (by simp [target, bound])

theorem readCheck_eq_none (target : cpu.isSub = s.targetIsSubCpu) (bound : s.bound = true) : readCheck cpu s = none := by
  simp [readCheck, isTarget, target, bound]

theorem exec_readword_repeat (target : cpu.isSub = s.targetIsSubCpu) (bound : s.bound = true)
    (cursor : s.wordCursor = s.params.wordsPerSector) :
    exec (.readword cpu) s = .next (s.answer (.word (slotWord s s.boundSlotIndex (s.params.wordsPerSector - 1)))) := by
  rw [exec, execReadword, readCheck_eq_none target bound]
  exact if_pos cursor

theorem exec_readword_next (target : cpu.isSub = s.targetIsSubCpu) (bound : s.bound = true)
    (cursor : s.wordCursor ≠ s.params.wordsPerSector) :
    exec (.readword cpu) s = .next (s.advanceCursor.answer (.word (slotWord s s.boundSlotIndex s.wordCursor))) := by
  rw [exec, execReadword, readCheck_eq_none target bound]
  exact if_neg cursor

/-- The two delivering rows in one: the word at the cursor, or the last one at the end (R127). -/
theorem CdcInv.exec_readword_target (h : CdcInv s) (target : cpu.isSub = s.targetIsSubCpu) (bound : s.bound = true) :
    ∃ t : State, exec (.readword cpu) s =
      .next (t.answer (.word (slotWord s s.boundSlotIndex (min (s.params.wordsPerSector - 1) s.wordCursor)))) := by
  have range := h.cursor
  by_cases cursor : s.wordCursor = s.params.wordsPerSector
  · exact ⟨s, by rw [exec_readword_repeat target bound cursor, Nat.min_eq_left (by omega)]⟩
  · exact ⟨s.advanceCursor, by rw [exec_readword_next target bound cursor, Nat.min_eq_right (by omega)]⟩

theorem exec_ack_unbound (free : s.bound = false) : exec .ack s = .next (s.answer .done) := by
  rw [exec, execAck, free]
  rfl

theorem CdcInv.exec_ack_bound (h : CdcInv s) (bound : s.bound = true) :
    exec .ack s = .next (s.unbind.releaseOldest.answer .done) :=
  exec_ack_release bound ⟨(h.bound bound).2, (h.bound bound).1⟩

theorem exec_mode_of_not_target (other : cpu.isSub ≠ s.targetIsSubCpu) :
    exec (.mode cpu) s = .next (s.answer (.word edtMask)) := by
  have value : modeValue cpu s = edtMask := by simp [modeValue, isTarget, other]
  rw [exec, execMode, value, respond]

end

/-- R160: under the invariants every operation has a next state: only `ACK` is ever refused, and R43 excludes it. -/
theorem CdcInv.exec_next {s : State} (h : CdcInv s) (i : Instr) : ∃ t, exec i s = .next t := by
  cases i with
  | beginread =>
    rcases bindOrFail_cases (Machine.refillPass s) with ⟨-, e⟩ | ⟨-, -, -, e⟩ | ⟨-, -, _, -, e⟩ <;> exact ⟨_, e⟩
  | readword cpu => rcases execReadword_cases cpu s with ⟨-, e⟩ | ⟨-, -, -, e⟩ | ⟨-, -, -, e⟩ <;> exact ⟨_, e⟩
  | ack =>
    cases bound : s.bound with
    | false => exact ⟨_, exec_ack_unbound bound⟩
    | true => exact ⟨_, h.exec_ack_bound bound⟩
  | init | start | stop | poll | seek | mode | setdest | setdma => exact ⟨_, rfl⟩

/-! ### The transfer state under the operations that have no row (R129) -/

theorem sameTransfer_refillPass (s : State) : SameTransfer s (refillPass s) := by
  simp [SameTransfer]

/-- A bind that succeeded found the transfer free and bound the oldest slot from its first word (R121). -/
theorem Performs.of_bindSucceeded {s t : State} (p : Performs s .beginread t) (succeeded : bindSucceeded t) :
    ∃ target, t = ((refillPass s).bindOldest target).answer (.bind (some (oldestHeader (refillPass s)))) := by
  cases p with
  | bindBusy | bindInvalid => simp at succeeded
  | bindOldest target => exact ⟨target, rfl⟩

/-! ### A transfer that stays bound (R130) -/

/-- `t` still has the transfer bound in `s`, `reads` `READWORD`s of the target later. -/
structure StillBound (s : State) (reads : Nat) (t : State) : Prop where
  inv    : CdcInv t
  params : t.params = s.params
  bound  : t.bound = true
  slot   : t.boundSlotIndex = s.boundSlotIndex
  target : t.targetIsSubCpu = s.targetIsSubCpu
  cursor : t.wordCursor = min s.params.wordsPerSector (s.wordCursor + reads)
  words  : ∀ w, slotWord? t s.boundSlotIndex w = slotWord? s s.boundSlotIndex w

namespace StillBound
variable {s t u : State} {m n : Nat}

theorem refl (h : CdcInv s) (bound : s.bound = true) : StillBound s 0 s :=
  ⟨h, rfl, bound, rfl, rfl, (Nat.min_eq_right h.cursor).symm, fun _ => rfl⟩

theorem trans (first : StillBound s m t) (rest : StillBound t n u) : StillBound s (m + n) u where
  inv := rest.inv
  params := rest.params.trans first.params
  bound := rest.bound
  slot := rest.slot.trans first.slot
  target := rest.target.trans first.target
  cursor := by rw [rest.cursor, first.cursor, first.params]; omega
  words := fun w => by rw [← first.words, ← first.slot, rest.words]

theorem slotWord_eq (h : StillBound s n t) (w : Nat) : slotWord t t.boundSlotIndex w = slotWord s s.boundSlotIndex w := by
  rw [h.slot, slotWord, slotWord, h.words, h.params]

end StillBound

theorem readsBy_cons (sub : Bool) (i : Instr) (is : List Instr) : readsBy sub (i :: is) = readsBy sub [i] + readsBy sub is := by
  cases i with
  | readword cpu => by_cases h : cpu.isSub = sub <;> simp [readsBy, h, Nat.add_comm]
  | _ => simp [readsBy]

theorem readsBy_readword (cpu : Cpu) : readsBy cpu.isSub [.readword cpu] = 1 := by simp [readsBy]

namespace Performs
variable {i : Instr} {s t : State}

/-- Nothing but `INIT`, `ACK` and a bind writes the binding, and a bound transfer makes a bind fail (R122). -/
theorem binding_kept (p : Performs s i t) (bound : s.bound = true) (hi : endsTransfer i = false) :
    t.bound = true ∧ t.boundSlotIndex = s.boundSlotIndex ∧ t.targetIsSubCpu = s.targetIsSubCpu := by
  cases p with
  | init | ackUnbound | ackRelease => cases hi
  | bindInvalid _ free | bindOldest _ _ free => rw [bound] at free; cases free
  | _ => simp [bound]

/-- The cursor of a bound transfer moves with the target's `READWORD`s and stops at the end of the sector (R125, R127). -/
theorem cursor_advanced (p : Performs s i t) (hs : CdcInv s) (bound : s.bound = true) (hi : endsTransfer i = false) :
    t.wordCursor = min s.params.wordsPerSector (s.wordCursor + readsBy s.targetIsSubCpu [i]) := by
  have range := hs.cursor
  cases p with
  | init | ackUnbound | ackRelease => cases hi
  | bindInvalid _ free | bindOldest _ _ free => rw [bound] at free; cases free
  | readSentinel cpu unread =>
    have other : cpu.isSub ≠ s.targetIsSubCpu := unread.resolve_right (by simp [bound])
    simp [readsBy, other, range]
  | readRepeat cpu target _ cursor => simp [readsBy, target, cursor]
  | readNext cpu target _ cursor => simp [readsBy, target]; omega
  | _ => simp [readsBy, range]

/-- The bound slot is the oldest of the ring (R43), and no pass writes an occupied slot (R45). -/
theorem boundWords_kept (p : Performs s i t) (hs : CdcInv s) (bound : s.bound = true) (w : Nat) :
    slotWord? t s.boundSlotIndex w = slotWord? s s.boundSlotIndex w := by
  obtain ⟨oldest, nonempty⟩ := hs.bound bound
  rw [oldest, ← hs.occupiedSlot_zero]
  exact p.slotWord?_occupied hs nonempty w

theorem stillBound (p : Performs s i t) (hs : CdcInv s) (bound : s.bound = true) (hi : endsTransfer i = false) :
    StillBound s (readsBy s.targetIsSubCpu [i]) t := by
  obtain ⟨bound', slot, target⟩ := p.binding_kept bound hi
  exact ⟨p.inv hs, p.params, bound', slot, target, p.cursor_advanced hs bound hi, p.boundWords_kept hs bound⟩

end Performs

theorem execAll_cons {i : Instr} {s t : State} (h : exec i s = .next t) (is : List Instr) : execAll (i :: is) s = execAll is t := by
  rw [execAll, h]

/-- R130: a transfer stays bound over every list of operations that do not end it. -/
theorem CdcInv.stillBound_execAll {s : State} (h : CdcInv s) (bound : s.bound = true) {is : List Instr}
    (keep : ∀ i ∈ is, endsTransfer i = false) : ∃ t, execAll is s = .next t ∧ StillBound s (readsBy s.targetIsSubCpu is) t := by
  induction is generalizing s with
  | nil => exact ⟨s, rfl, .refl h bound⟩
  | cons i is ih =>
    obtain ⟨hi, his⟩ := List.forall_mem_cons.1 keep
    obtain ⟨t, he⟩ := h.exec_next i
    have first := (performs_of_exec he).stillBound h bound hi
    obtain ⟨u, hu, rest⟩ := ih first.inv first.bound his
    rw [first.target] at rest
    exact ⟨u, (execAll_cons he is).trans hu, readsBy_cons _ i is ▸ first.trans rest⟩

/-! ### The answers of `DRAIN` (R81, R130) -/

/-- Below the end, `count` `READWORD`s of the target answer the next `count` words of the bound slot. -/
theorem CdcInv.responses_readwords {s : State} {cpu : Cpu} (h : CdcInv s) (bound : s.bound = true)
    (target : cpu.isSub = s.targetIsSubCpu) {count : Nat} (room : s.wordCursor + count ≤ s.params.wordsPerSector) (is : List Instr) :
    ∃ t, StillBound s count t ∧ responses (List.replicate count (.readword cpu) ++ is) s =
      (responses is t).map fun rs =>
        ((List.range' s.wordCursor count).map fun w => .word (slotWord s s.boundSlotIndex w)) ++ rs := by
  induction count generalizing s with
  | zero => exact ⟨s, .refl h bound, by simp⟩
  | succ count ih =>
    have read := exec_readword_next target bound (by omega)
    have first := (performs_of_exec read).stillBound h bound rfl
    rw [← target, readsBy_readword] at first
    have cursor : (s.advanceCursor.answer (.word (slotWord s s.boundSlotIndex s.wordCursor))).wordCursor = s.wordCursor + 1 := rfl
    obtain ⟨t, rest, answers⟩ := ih first.inv first.bound target (by rw [cursor, first.params]; omega)
    refine ⟨t, Nat.add_comm 1 count ▸ first.trans rest, ?_⟩
    simp only [cursor, first.slotWord_eq] at answers
    rw [List.replicate_succ, List.cons_append, responses_cons read, answers, Option.map_map]
    rfl

theorem CdcInv.responses_ack {s : State} (h : CdcInv s) : responses [.ack] s = some [.done] := by
  cases bound : s.bound with
  | false => exact responses_cons (exec_ack_unbound bound) []
  | true => exact responses_cons (h.exec_ack_bound bound) []

/-- From a fresh bind, `READWORD` to the end and `ACK` answer the whole bound slot, then `Done`. -/
theorem CdcInv.responses_drain {s : State} {cpu : Cpu} (h : CdcInv s) (bound : s.bound = true)
    (target : cpu.isSub = s.targetIsSubCpu) (fresh : s.wordCursor = 0) :
    responses (List.replicate s.params.wordsPerSector (.readword cpu) ++ [.ack]) s =
      some ((slotWords s s.boundSlotIndex).map .word ++ [.done]) := by
  obtain ⟨t, after, answers⟩ := h.responses_readwords bound target (count := s.params.wordsPerSector) (by omega) [.ack]
  rw [answers, after.inv.responses_ack, fresh, ← List.range_eq_range', slotWords, List.map_map]
  rfl

end Sys2Proof.Machine

namespace Sys2Proof.Proofs
open Sys2Proof Sys2Proof.Machine

/-- Settles O44: a bind leaves a fresh transfer of the oldest slot; a bound transfer stays bound, and the next word is the one at the
cursor, which the slot still holds. -/
theorem transferDeliversInOrder : Obligations.TransferDeliversInOrder := by
  unfold Obligations.TransferDeliversInOrder
  refine ⟨fun s t h hs he hr => ?bind, fun s is cpu hs bound keep target => ?deliver⟩
  case bind =>
    obtain ⟨which, rfl⟩ := (performs_of_exec he).of_bindSucceeded ⟨h, hr⟩
    have inv := (performs_of_exec he).inv hs
    obtain ⟨word0, word1⟩ := inv.headerWords_oldest (inv.bound rfl).2
    have header : oldestHeader (refillPass s) = h := by simpa using hr
    exact ⟨rfl, rfl, refillPass_readIndex s, _, _, word0, word1, header.symm⟩
  case deliver =>
    obtain ⟨t, run, still⟩ := hs.stillBound_execAll bound keep
    have hW := Params.three_le_wordsPerSector hs.params
    obtain ⟨u, read⟩ := still.inv.exec_readword_target (target.trans still.target.symm) still.bound
    have offset : min (t.params.wordsPerSector - 1) t.wordCursor =
        min (s.params.wordsPerSector - 1) (s.wordCursor + readsBy s.targetIsSubCpu is) := by
      rw [still.params, still.cursor]; omega
    rw [still.slotWord_eq, offset] at read
    exact ⟨t, _, _, run, still.bound, still.slot, still.target, still.cursor, hs.slotWord?_bound bound (by omega), read, rfl⟩

/-- Settles O37: `POLL` is its pass. -/
theorem pollRefillsAndReports : Obligations.PollRefillsAndReports := by
  unfold Obligations.PollRefillsAndReports
  exact fun s hs => ⟨refillPass s, hs.afterRefill, rfl⟩

/-- Settles O38: the rows of `BEGINREAD`, with the header as a number. -/
theorem beginReadBindsOrFails : Obligations.BeginReadBindsOrFails := by
  unfold Obligations.BeginReadBindsOrFails
  intro s hs
  refine ⟨refillPass s, hs.afterRefill, fun empty => exec_beginread_busy (.inl empty), fun _ bound => exec_beginread_busy (.inr bound),
    fun nonempty free code => ?invalid, fun nonempty free code => ?bind⟩
  case invalid =>
    rw [exec_beginread_invalid nonempty free (targetOfCode_eq_none.2 code), emitDiag_refillPass]
    rfl
  case bind =>
    obtain ⟨word0, word1⟩ := hs.headerWords_refillPass nonempty
    refine ⟨_, _, oldestHeader (refillPass s), word0, word1, ?_, ?_⟩
    · rw [oldestHeader_refillPass, header32_toNat]
    · rw [exec_beginread_bind nonempty free (targetOfCode_of_valid code), bindOldest_refillPass]
      rfl

/-- Settles O39: after a bind the transfer is bound, so the second `BEGINREAD` is its pass and a failed bind. -/
theorem secondBeginReadFails : Obligations.SecondBeginReadFails := by
  unfold Obligations.SecondBeginReadFails
  intro s t _ he succeeded
  obtain ⟨target, rfl⟩ := (performs_of_exec he).of_bindSucceeded succeeded
  exact ⟨_, exec_beginread_busy (.inr rfl), rfl, sameTransfer_refillPass _, refillPass_diagLog _⟩

/-- Settles O40: the rows of `READWORD`; the words they deliver have been written. -/
theorem readWordDelivers : Obligations.ReadWordDelivers := by
  unfold Obligations.ReadWordDelivers
  intro s cpu hs
  have hW := Params.three_le_wordsPerSector hs.params
  refine ⟨fun other => exec_readword_sentinel (.inl other), fun _ free => exec_readword_sentinel (.inr free),
    fun target bound cursor => ?sticky, fun target bound cursor => ?next⟩
  case sticky => exact ⟨_, hs.slotWord?_bound bound (by omega), exec_readword_repeat target bound cursor⟩
  case next => exact ⟨_, hs.slotWord?_bound bound cursor, exec_readword_next target bound cursor.ne⟩

/-- Settles O41: the two rows of `ACK`, and the operations that write the drain side of the ring. -/
theorem ackReleasesTheOldestSlot : Obligations.AckReleasesTheOldestSlot := by
  unfold Obligations.AckReleasesTheOldestSlot
  exact fun s hs => ⟨exec_ack_unbound, hs.exec_ack_bound,
    fun i t he hinit lower => ((performs_of_exec he).writes_drainSide (.inr lower)).resolve_left hinit⟩

/-- Settles O42: each way an operation can end is one row; the other rows of its operation exclude what led to it. -/
theorem transferTransitions : Obligations.TransferTransitions := by
  unfold Obligations.TransferTransitions
  intro s i t hs he
  have hW := Params.three_le_wordsPerSector hs.params
  cases performs_of_exec he with
  | init => exact ⟨rfl, rfl, rfl, rfl, rfl⟩
  | stop | mode | setdest | setdma => exact ⟨rfl, rfl, rfl, rfl⟩
  | start | poll | seek => exact sameTransfer_refillPass _
  | ackUnbound free => exact ⟨rfl, free, rfl, rfl, rfl, by simp [free], fun _ => rfl⟩
  | ackRelease bound nonempty => exact ⟨rfl, rfl, rfl, rfl, rfl, fun _ => Nat.sub_add_cancel nonempty, by simp [bound]⟩
  | readSentinel cpu unread =>
    have idle (bound : s.bound = true) (target : cpu.isSub = s.targetIsSubCpu) : False := by simp [bound, target] at unread
    exact ⟨rfl, rfl, rfl, fun _ => ⟨rfl, rfl⟩, fun bound target => (idle bound target).elim,
      fun bound target => (idle bound target).elim⟩
  | readRepeat cpu target bound cursor =>
    refine ⟨rfl, rfl, rfl, by simp [target, bound], fun _ _ below => absurd cursor below.ne, fun _ _ _ => ⟨rfl, ?_⟩⟩
    rw [hs.slotWord?_bound bound (by omega)]
    rfl
  | readNext cpu target bound cursor =>
    refine ⟨rfl, rfl, rfl, by simp [target, bound], fun _ _ below => ⟨rfl, ?_⟩, fun _ _ full => absurd full cursor⟩
    rw [hs.slotWord?_bound bound below]
    rfl
  | bindBusy busy =>
    have idle (free : s.bound = false) (nonempty : (refillPass s).occupancy ≠ 0) : False := by simp [free, nonempty] at busy
    exact ⟨fun _ => ⟨sameTransfer_refillPass s, rfl, refillPass_diagLog s⟩, fun free nonempty => (idle free nonempty).elim,
      fun _ free nonempty => (idle free nonempty).elim⟩
  | bindInvalid nonempty free code =>
    exact ⟨by simp [free, nonempty], fun _ _ _ => ⟨sameTransfer_refillPass s, rfl, by simp⟩, by simp [code]⟩
  | bindOldest target nonempty free code =>
    obtain ⟨word0, word1⟩ := hs.headerWords_refillPass nonempty
    refine ⟨by simp [free, nonempty], by simp [code], fun which _ _ code' => ?_⟩
    refine ⟨rfl, rfl, Option.some.inj (code.symm.trans code'), refillPass_readIndex s, refillPass_diagLog s, _, _, word0, word1, ?_⟩
    rw [State.answer_response, oldestHeader_refillPass, header32]

/-- Settles O45: the bind answers the header of the slot at `read_index` as the pass leaves it, and the rest drains that slot. -/
theorem drainReadsTheOldestSector : Obligations.DrainReadsTheOldestSector := by
  unfold Obligations.DrainReadsTheOldestSector
  intro s cpu hs free buffered code
  have nonempty : (refillPass s).occupancy ≠ 0 := by rwa [hs.afterRefill.occupancy]
  have begun := exec_beginread_bind nonempty free code
  have inv := (performs_of_exec begun).inv hs
  obtain ⟨payload, sector⟩ := slotWords_eq_cons hs.refillPass.params s.readIndex
  refine ⟨refillPass s, _, _, payload, hs.afterRefill, sector, ?_⟩
  have drained := inv.responses_drain (cpu := cpu) rfl rfl rfl
  simp only [State.answer_params, State.bindOldest_params, refillPass_params, State.answer_boundSlotIndex,
    State.bindOldest_boundSlotIndex, refillPass_readIndex] at drained
  rw [List.cons_append, responses_cons begun, drained, oldestHeader_refillPass, ← sector]
  rfl

/-- Settles O46: the rows that answer the other CPU answer constants. -/
theorem otherCpuLearnsNothing : Obligations.OtherCpuLearnsNothing := by
  unfold Obligations.OtherCpuLearnsNothing
  intro s s' cpu same other
  have other' : cpu.isSub ≠ s'.targetIsSubCpu := same ▸ other
  exact ⟨_, _, exec_readword_sentinel (.inl other), exec_readword_sentinel (.inl other'), exec_mode_of_not_target other,
    exec_mode_of_not_target other'⟩

end Sys2Proof.Proofs
end

section
/-! PROOFS. The control surface (spec/43_control_surface.md R140 to R149): the two setters' registers under a refill pass and under every
operation, and the obligations about the operations that only control. -/

namespace Sys2Proof.Machine

/-! ### The registers of the two setters (R145, R146) -/

/-- Both registers hold the given values. -/
def State.setRegisters (code : Byte) (addr : Word) (s : State) : State := (s.setDestination code).setDmaAddress addr

section
variable {code : Byte} {addr : Word} {s : State}

theorem State.setRegisters_of_dmaAddress_eq (h : s.dmaAddress = addr) : s.setRegisters code addr = s.setDestination code := by
  rw [← h]; rfl

theorem State.setRegisters_of_deviceDestination_eq (h : s.deviceDestination = code) :
    s.setRegisters code addr = s.setDmaAddress addr := by
  rw [← h]; rfl

end

section
variable (code : Byte) (addr : Word) (s : State)

theorem refillStep_setRegisters : refillStep (s.setRegisters code addr) = (refillStep s).setRegisters code addr := by
  simp only [refillStep, countSector, apply_ite (State.setRegisters code addr)]
  rfl

theorem refillLoop_setRegisters (n : Nat) :
    refillLoop n (s.setRegisters code addr) = (refillLoop n s).setRegisters code addr := by
  induction n generalizing s with
  | zero => rfl
  | succ n ih =>
    have test : canRefill (s.setRegisters code addr) = canRefill s := rfl
    rw [refillLoop, refillLoop, test, refillStep_setRegisters, ih, apply_ite (State.setRegisters code addr)]

/-- No part of a pass reads or writes the two registers. -/
theorem refillPass_setRegisters : refillPass (s.setRegisters code addr) = (refillPass s).setRegisters code addr :=
  refillLoop_setRegisters code addr s _

end

/-- An operation either sets one of the two registers (`INIT` both), or keeps both and performs the same with any other values in
them; only `BEGINREAD` needs the routing code it had. -/
theorem Performs.registers_cases {i : Instr} {s t : State} (p : Performs s i t) {code : Byte} {addr : Word}
    (routed : i = .beginread → code = s.deviceDestination) :
    i = .init ∨ (∃ c, i = .setdest c) ∨ (∃ a, i = .setdma a) ∨
    (t.deviceDestination = s.deviceDestination ∧ t.dmaAddress = s.dmaAddress ∧
      exec i (s.setRegisters code addr) = .next (t.setRegisters code addr)) := by
  cases p
  case init => exact .inl rfl
  case setdest c => exact .inr (.inl ⟨c, rfl⟩)
  case setdma a => exact .inr (.inr (.inl ⟨a, rfl⟩))
  all_goals refine .inr (.inr (.inr ⟨by simp, by simp, ?_⟩))
  case stop | mode => rfl
  case start => exact congrArg (respond .done) (refillPass_setRegisters code addr (s.setReading true))
  case seek a b => exact congrArg (respond .done) (refillPass_setRegisters code addr (s.setPosition a b))
  case poll => rw [exec, execPoll, refillPass_setRegisters]; rfl
  case readSentinel unread => exact exec_readword_sentinel unread
  case readRepeat target bound cursor => exact exec_readword_repeat target bound cursor
  case readNext target bound cursor => exact exec_readword_next target bound cursor
  case ackUnbound free => exact exec_ack_unbound free
  case ackRelease bound nonempty oldest => exact exec_ack_release bound ⟨nonempty, oldest⟩
  all_goals obtain rfl := routed rfl
  all_goals have pass := refillPass_setRegisters s.deviceDestination addr s
  case bindBusy busy =>
    rw [exec_beginread_busy (s := s.setRegisters _ addr) (by rwa [pass]), pass]
    rfl
  case bindInvalid nonempty free invalid =>
    rw [exec_beginread_invalid (s := s.setRegisters _ addr) (by rwa [pass]) free invalid, pass]
    rfl
  case bindOldest target nonempty free valid =>
    rw [exec_beginread_bind (s := s.setRegisters _ addr) (by rwa [pass]) free valid, pass]
    rfl

/-! ### The value of `MODE` (R147, R148) -/

@[simp] theorem flagWord_bit15 (e d : Bool) : (flagWord e d).getLsbD 15 = e := by cases e <;> cases d <;> rfl

@[simp] theorem flagWord_bit14 (e d : Bool) : (flagWord e d).getLsbD 14 = d := by cases e <;> cases d <;> rfl

theorem flagWord_lowBits (e d : Bool) : flagWord e d &&& 0x3FFF = 0 := by cases e <;> cases d <;> rfl

theorem flagWord_ne_zero {e d : Bool} (set : e = true ∨ d = true) : flagWord e d ≠ 0 := by
  rcases set with rfl | rfl
  · cases d <;> decide
  · cases e <;> decide

theorem exec_mode_of_target {s : State} {cpu : Cpu} (target : cpu.isSub = s.targetIsSubCpu) :
    exec (.mode cpu) s = .next (s.answer (.word (flagWord (edt s) (dsr s)))) := by
  have value : modeValue cpu s = flagWord (edt s) (dsr s) := by simp [modeValue, isTarget, target]
  rw [exec, execMode, value, respond]

/-- At the end of the sector only `EDT` is set, everywhere else `DSR` is (R149). -/
theorem edt_or_dsr (s : State) : edt s = true ∨ dsr s = true := by
  simp [edt_eq, dsr_eq]
  omega

end Sys2Proof.Machine

namespace Sys2Proof.Proofs
open Sys2Proof Sys2Proof.Machine

/-- Settles O24: `INIT` and the register's own setter overwrite what it held; every other operation carries it through. -/
theorem settersWriteOneRegister : Obligations.SettersWriteOneRegister := by
  unfold Obligations.SettersWriteOneRegister
  refine ⟨fun _ _ => rfl, fun _ _ => rfl, fun s i t code hi he => ?destination, fun s i t addr he => ?dma⟩
  case destination =>
    rcases (performs_of_exec he).registers_cases (code := code) (addr := s.dmaAddress) (fun h => absurd h hi) with
      rfl | ⟨c, rfl⟩ | ⟨a, rfl⟩ | ⟨-, dma, carried⟩
    · exact .inl he
    · exact .inl he
    · cases he; exact .inr rfl
    · exact .inr (carried.trans (congrArg _ (State.setRegisters_of_dmaAddress_eq dma)))
  case dma =>
    rcases (performs_of_exec he).registers_cases (addr := addr) (fun _ => rfl) with
      rfl | ⟨c, rfl⟩ | ⟨a, rfl⟩ | ⟨destination, -, carried⟩
    · exact .inl he
    · cases he; exact .inr rfl
    · exact .inl he
    · exact .inr (carried.trans (congrArg _ (State.setRegisters_of_deviceDestination_eq destination)))

/-- Settles O21: setting `reading` keeps the invariants, under which the pass is the one described. -/
theorem startSetsReadingAndRefills : Obligations.StartSetsReadingAndRefills := by
  unfold Obligations.StartSetsReadingAndRefills
  exact fun s hs => ⟨_, (hs.setReading true).afterRefill, rfl⟩

/-- Settles O22: writing the position keeps the invariants, whatever the ring holds. -/
theorem seekSetsPositionAndRefills : Obligations.SeekSetsPositionAndRefills := by
  unfold Obligations.SeekSetsPositionAndRefills
  exact fun s a b hs => ⟨_, (hs.setPosition a b).afterRefill, rfl⟩

/-- Settles O23: with `reading` clear the pass of the `POLL` cannot start. -/
theorem stopOnlyHaltsRefilling : Obligations.StopOnlyHaltsRefilling := by
  unfold Obligations.StopOnlyHaltsRefilling
  refine ⟨fun _ => rfl, fun s t _ he => ?_⟩
  obtain rfl := respond_next he
  exact exec_poll_idle (canRefill_eq_false (.inl rfl))

/-- Settles O25: the target gets the two flags, both functions of the cursor; the other CPU gets a constant. -/
theorem modeReturnsTheFlags : Obligations.ModeReturnsTheFlags := by
  unfold Obligations.ModeReturnsTheFlags
  intro s cpu hs
  have hW := Params.three_le_wordsPerSector hs.params
  by_cases target : cpu.isSub = s.targetIsSubCpu
  · refine ⟨_, exec_mode_of_target target, flagWord_lowBits _ _, flagWord_ne_zero (edt_or_dsr s), absurd target, fun _ =>
      ⟨flagWord_bit15 _ _, flagWord_bit14 _ _, fun cursor => ?_, fun cursor => ?_, fun cursor => ?_⟩⟩
    · exact congrArg₂ flagWord (decide_eq_false (by omega)) (decide_eq_true (by omega))
    · exact congrArg₂ flagWord (decide_eq_true (by omega)) (decide_eq_true (by omega))
    · exact congrArg₂ flagWord (decide_eq_true (by omega)) (decide_eq_false (by omega))
  · exact ⟨_, exec_mode_of_not_target target, by decide, by decide, fun _ => rfl, fun h => absurd h target⟩

/-- Settles O19: both forms are the record `INIT` writes, field by field. -/
theorem initLeavesTheResetRecord : Obligations.InitLeavesTheResetRecord :=
  ⟨fun _ => rfl, fun _ => rfl⟩

end Sys2Proof.Proofs
end

section
/-! PROOFS. Exceptions and failures (spec/60_exceptions.md R160 to R177): the checks of `BEGINREAD` and `READWORD` one condition at a time,
what every operation does to the diagnostic log, and the obligations about them. -/

namespace Sys2Proof.Machine

/-! ### The order of the checks (R163) -/

section
variable {s : State} {cpu : Cpu}

theorem bindCheck_of_empty (empty : s.occupancy = 0) : bindCheck s = .error .busyEmpty := if_pos empty

theorem bindCheck_of_bound (nonempty : s.occupancy ≠ 0) (bound : s.bound = true) : bindCheck s = .error .busyBound := by
  rw [bindCheck, if_neg nonempty, if_pos bound]

theorem bindCheck_of_invalid (nonempty : s.occupancy ≠ 0) (free : s.bound = false) (code : targetOfCode s.deviceDestination = none) :
    bindCheck s = .error .invalidDest := by
  simp [bindCheck, nonempty, free, code]

theorem readCheck_of_not_target (other : cpu.isSub ≠ s.targetIsSubCpu) : readCheck cpu s = some .wrongMaster := by
  simp [readCheck, isTarget, other]

theorem readCheck_of_unbound (target : cpu.isSub = s.targetIsSubCpu) (free : s.bound = false) : readCheck cpu s = some .notBound := by
  simp [readCheck, isTarget, target, free]

theorem readCheck_eq_none_iff : readCheck cpu s = none ↔ cpu.isSub = s.targetIsSubCpu ∧ s.bound = true := by
  refine ⟨fun passed => ?_, fun ⟨target, bound⟩ => readCheck_eq_none target bound⟩
  by_cases target : cpu.isSub = s.targetIsSubCpu
  · cases bound : s.bound with
    | false => simp [readCheck_of_unbound target bound] at passed
    | true => exact ⟨target, rfl⟩
  · simp [readCheck_of_not_target target] at passed

end

namespace CdcInv
variable {s : State} {cpu : Cpu}

/-- Both delivering rows of `READWORD` as one next state: the offset stops at the last word, the cursor one after it (R125, R127). -/
theorem exec_readword_delivers (h : CdcInv s) (target : cpu.isSub = s.targetIsSubCpu) (bound : s.bound = true) :
    exec (.readword cpu) s = .next { s with
      wordCursor := if s.wordCursor = s.params.wordsPerSector then s.wordCursor else s.wordCursor + 1
      response := some (.word (slotWord s s.boundSlotIndex (min s.wordCursor (s.params.wordsPerSector - 1)))) } := by
  have range := h.cursor
  by_cases cursor : s.wordCursor = s.params.wordsPerSector
  · rw [exec_readword_repeat target bound cursor, if_pos cursor, Nat.min_eq_right (by omega)]
    rfl
  · rw [exec_readword_next target bound cursor, if_neg cursor, Nat.min_eq_left (by omega)]
    rfl

end CdcInv

/-! ### Responses and diagnostics of every operation (R160, R177) -/

namespace Performs
variable {i : Instr} {s t : State}

theorem exists_response (p : Performs s i t) : ∃ r, t.response = some r := by
  cases p <;> exact ⟨_, rfl⟩

/-- A `BEGINREAD` that finds the block busy is its pass and the failed bind's response. -/
theorem eq_of_busy (p : Performs s .beginread t) (busy : t.occupancy = 0 ∨ s.bound = true) :
    t = (refillPass s).answer (.bind none) := by
  cases p with
  | bindBusy => rfl
  | bindInvalid nonempty free | bindOldest _ nonempty free => simp [nonempty, free] at busy

/-- Only the row `INVALID_DEST` of `BEGINREAD` writes the log. -/
theorem diagLog_cases (p : Performs s i t) :
    ((i = .beginread ∧ t.occupancy ≠ 0 ∧ s.bound = false ∧ targetOfCode s.deviceDestination = none) ∧
      t.diagLog = s.diagLog ++ [s.deviceDestination]) ∨
    (¬ (i = .beginread ∧ t.occupancy ≠ 0 ∧ s.bound = false ∧ targetOfCode s.deviceDestination = none) ∧
      t.diagLog = s.diagLog) := by
  cases p with
  | bindInvalid nonempty free code => exact .inl ⟨⟨rfl, nonempty, free, code⟩, by simp⟩
  | bindBusy busy => exact .inr ⟨fun ⟨_, nonempty, free, _⟩ => busy.elim nonempty (by simp [free]), by simp⟩
  | bindOldest target _ _ code => exact .inr ⟨by simp [code], by simp⟩
  | _ => exact .inr (by simp)

end Performs

end Sys2Proof.Machine

namespace Sys2Proof.Proofs
open Sys2Proof Sys2Proof.Machine

/-- Settles O14: the next state exists under the invariants, so it is no refusal; every way to reach it answers. -/
theorem everyOperationCompletes : Obligations.EveryOperationCompletes := by
  unfold Obligations.EveryOperationCompletes
  refine ⟨fun s i hs => ?completes, fun s i r hs refused => ?unrefused, fun _ _ f => nomatch f⟩
  case completes =>
    obtain ⟨t, he⟩ := hs.exec_next i
    obtain ⟨r, hr⟩ := (performs_of_exec he).exists_response
    exact ⟨t, r, he, hr⟩
  case unrefused =>
    obtain ⟨t, he⟩ := hs.exec_next i
    cases he.symm.trans refused

/-- Settles O48: the two cases of the log, with the codes that select no target written out. -/
theorem diagnosticsOnlyForInvalidCodes : Obligations.DiagnosticsOnlyForInvalidCodes := by
  unfold Obligations.DiagnosticsOnlyForInvalidCodes
  intro s i t he
  rw [← targetOfCode_eq_none]
  rcases (performs_of_exec he).diagLog_cases with ⟨invalid, log⟩ | ⟨other, log⟩
  · exact ⟨.inr log, fun _ => invalid, fun _ => by simp [log]⟩
  · exact ⟨.inl log, fun changed => absurd log changed, fun invalid => absurd invalid other⟩

/-- Settles O49: the checks condition by condition, and the row of `exec` each of them leads to. -/
theorem conditionsHaveAnOrder : Obligations.ConditionsHaveAnOrder := by
  unfold Obligations.ConditionsHaveAnOrder
  refine ⟨fun s => ⟨bindCheck_of_empty, bindCheck_of_bound, bindCheck_of_invalid⟩, fun s t he busy => ?busy,
    fun s cpu => ⟨readCheck_of_not_target, readCheck_of_unbound, readCheck_eq_none⟩,
    fun s cpu hs => ⟨fun failed => ?sentinel, fun passed => ?deliver⟩,
    fun s cpu => ⟨exec_mode_of_not_target, exec_mode_of_target⟩⟩
  case busy =>
    rw [(performs_of_exec he).eq_of_busy busy]
    exact ⟨rfl, refillPass_diagLog s⟩
  case sentinel =>
    rw [Ne, readCheck_eq_none_iff, not_and_or, Bool.not_eq_true] at failed
    exact exec_readword_sentinel failed
  case deliver =>
    obtain ⟨target, bound⟩ := readCheck_eq_none_iff.1 passed
    have hW := Params.three_le_wordsPerSector hs.params
    exact ⟨_, hs.slotWord?_bound bound (by omega), hs.exec_readword_delivers target bound⟩

end Sys2Proof.Proofs
end

section
/-! PROOFS. Reset and hazards (spec/70_reset_and_hazards.md R190 to R207): the response of an operation that completes, the flags at the
end of a sector and before it, and the obligations about them. -/

namespace Sys2Proof.Machine

/-! ### The response of an operation that completes (R207) -/

/-- A response that already stands in the state is written over itself. -/
theorem State.answer_of_response {r : Response} {t : State} (h : t.response = some r) : t.answer r = t := by
  rw [State.answer, ← h]

/-- Every operation that completes contributes one response to those of the sequence it heads. -/
theorem exists_responses_cons {i : Instr} {s t : State} (h : exec i s = .next t) (is : List Instr) :
    ∃ r, responses (i :: is) s = (responses is t).map (r :: ·) := by
  obtain ⟨r, answered⟩ := (performs_of_exec h).exists_response
  have same := State.answer_of_response answered
  exact ⟨r, by rw [responses_cons (same.symm ▸ h), same]⟩

/-! ### `MODE` at the end of a sector and before it (R35, R147) -/

section
variable {s : State} {cpu : Cpu}

/-- At the end the target's flags are the mismatch sentinel: neither CPU can tell which of them is the target (R192, R206). -/
theorem exec_mode_at_end (cursor : s.wordCursor = s.params.wordsPerSector) (cpu : Cpu) :
    exec (.mode cpu) s = .next (s.answer (.word 0x8000)) := by
  by_cases target : cpu.isSub = s.targetIsSubCpu
  · have ended : edt s = true := by rw [edt_eq, cursor]; exact decide_eq_true (Nat.sub_le _ _)
    have unready : dsr s = false := by simp [dsr_eq, cursor]
    rw [exec_mode_of_target target, ended, unready]
    rfl
  · exact exec_mode_of_not_target target

/-- Before the end `DSR` is set, and `EDT` beside it at the last word. Whether the transfer is still bound does not matter (R197). -/
theorem exec_mode_before_end (target : cpu.isSub = s.targetIsSubCpu) (cursor : s.wordCursor < s.params.wordsPerSector) :
    exec (.mode cpu) s =
      .next (s.answer (.word (if s.wordCursor = s.params.wordsPerSector - 1 then 0xC000 else 0x4000))) := by
  have ready : dsr s = true := decide_eq_true cursor.ne
  rw [exec_mode_of_target target, ready]
  by_cases last : s.wordCursor = s.params.wordsPerSector - 1
  · have ended : edt s = true := decide_eq_true last.ge
    rw [ended, if_pos last]
    rfl
  · have running : edt s = false := decide_eq_false (by omega)
    rw [running, if_neg last]
    rfl

end

end Sys2Proof.Machine

namespace Sys2Proof.Proofs
open Sys2Proof Sys2Proof.Machine

/-- Settles O15, by induction on the list: under the invariants the first operation completes with a response and keeps them. -/
theorem everySequenceRuns : Obligations.EverySequenceRuns := by
  unfold Obligations.EverySequenceRuns
  intro is
  induction is with
  | nil => exact fun s hs => ⟨s, [], rfl, rfl, rfl, hs⟩
  | cons i is ih =>
    intro s hs
    obtain ⟨t, he⟩ := hs.exec_next i
    obtain ⟨u, rs, run, answers, length, hu⟩ := ih t ((performs_of_exec he).inv hs)
    obtain ⟨r, first⟩ := exists_responses_cons he is
    exact ⟨u, r :: rs, (execAll_cons he is).trans run, by rw [first, answers]; rfl, by simp [length], hu⟩

/-- Settles O47: `ACK` releases the slot and writes neither the cursor nor the target, so `MODE` goes on showing the flags of the old
cursor while `READWORD` finds nothing bound. -/
theorem earlyAckLeavesStaleFlags : Obligations.EarlyAckLeavesStaleFlags := by
  unfold Obligations.EarlyAckLeavesStaleFlags
  exact fun s cpu hs bound cursor target =>
    ⟨s.unbind.releaseOldest.answer .done, hs.exec_ack_bound bound, rfl, exec_mode_before_end target cursor,
      exec_readword_sentinel (.inr rfl)⟩

/-- Settles O18: reset leaves nothing to refill, an empty ring, nothing bound and the cursor at the end of a sector. -/
theorem answersRightAfterReset : Obligations.AnswersRightAfterReset := by
  unfold Obligations.AnswersRightAfterReset
  intro p _
  have idle : canRefill (State.resetOf p) = false := canRefill_eq_false (.inl rfl)
  have pass := refillPass_idle _ idle
  refine ⟨exec_poll_idle idle, ?bind, exec_ack_unbound rfl, fun cpu =>
    ⟨exec_readword_sentinel (.inr rfl), exec_mode_at_end rfl cpu⟩⟩
  case bind =>
    have empty : (refillPass (State.resetOf p)).occupancy = 0 := by rw [pass]; rfl
    rw [exec_beginread_busy (.inl empty), pass]
    rfl

/-- Settles O20: the reset record has neither the collaborators nor the slot words among its writes, and its ring is empty. -/
theorem resetTouchesNoCollaborator : Obligations.ResetTouchesNoCollaborator := by
  unfold Obligations.ResetTouchesNoCollaborator
  exact fun s => ⟨s.resetRecord.answer .done, rfl, rfl, rfl, fun _ => rfl, contents_of_occupancy_zero rfl, rfl⟩

end Sys2Proof.Proofs
end

section
/-! PROOFS. The fixed words of the spec's encoding vectors (spec/95_test_vectors.md V-ENC-1, V-ENC-2). A word of V-ENC-1 is an encoded
operation; a word of V-ENC-2 has bits set in fields its operation ignores, and carries the operation all the same. -/

namespace Sys2Proof.Proofs
open Sys2Proof Sys2Proof.Machine

/-- Settles O5: the words of `SEEK` and `MODE` are `encode`'s own, and each of the others has its operation's code and, in the bits the
operation uses (R73), its operand. -/
theorem specWordsDecode : Obligations.SpecWordsDecode := by
  unfold Obligations.SpecWordsDecode
  refine ⟨?init, ?poll, ?readwordSub, ?readwordMain, ?seek, ?mode, ?setdest, ?setdma⟩
  case init | poll => exact decode_of_carries rfl
  case seek => exact decode_encode (.seek 449998 7)
  case mode => exact decode_encode (.mode .sub)
  case readwordSub | readwordMain | setdest | setdma => exact decode_of_carries ⟨rfl, rfl⟩

end Sys2Proof.Proofs
end
